-- ==== Sys2Proof/Word.lean ====
section
/-! DEFINITION. The byte, the one data width of the block (00_scope.md R11, R14; 10_state.md R32). -/

namespace Sys2Proof

/-- A byte: 8 bits, unsigned, bit 0 the least significant (R14). "No value in this block is signed." -/
abbrev Byte := BitVec 8

end Sys2Proof
end

