-- ==== Sys2Proof/Config.lean ====
section
/-! DEFINITION. What is fixed for the block: the parameters of R11 with their derived sizes (R13), the two parameters
the sources leave open (R12), and the free values a run may draw. -/

namespace Sys2Proof

/-- The two parameters the model takes as arguments (R12, R28): fixed for the whole run, written by no operation.
They travel in `State.params`, so every statement holds for every value of them (log entry 3). -/
structure Params where
  /-- `HOST_TO_CHIP_DIR`: the direction byte prepended on transmit (R12, R68). OPEN in the spec. -/
  hostToChipDir : Byte
  /-- `ACCEPT_EMPTY_BODY`: whether RSP_MATCH and RSP_RX accept an empty body (R12, R172). -/
  acceptEmptyBody : Bool
deriving DecidableEq, Repr

namespace Config

/-- `MAX_LEN`: the largest payload length (R11, R61). -/
def maxLen : Nat := 255
/-- `PREAMBLE` (R11). -/
def preamble : Byte := 0x00
/-- `START1` (R11). -/
def start1 : Byte := 0x00
/-- `START2` (R11). -/
def start2 : Byte := 0xFF
/-- `POSTAMBLE` (R11). -/
def postamble : Byte := 0x00
/-- `ACK_PATTERN`, the Acknowledge Frame (R11, R64). -/
def ackPattern : List Byte := [0x00, 0x00, 0xFF, 0x00, 0xFF, 0x00]
/-- `HDR_BYTES`: how many bytes the header peek reads (R11). -/
def hdrBytes : Nat := 5
/-- `ACK_BYTES` (R11). -/
def ackBytes : Nat := 6
/-- `MIN_RSP_LEN`: declared lengths below this are rejected (R11). -/
def minRspLen : Nat := 2
/-- `CHIP_TO_HOST_DIR` (R11, R71). -/
def chipToHostDir : Byte := 0xD5
/-- `SCRATCH_BYTES` (R11): the session layer's Scratch Response Buffer. No operation of the block reads it (R33). -/
def scratchBytes : Nat := 255
/-- The longest frame, `MAX_LEN + 7` bytes: the capacity of `BUF` and of the request operand `V` (R13, R5, R23). -/
def longestFrame : Nat := maxLen + 7
/-- The longest parameter list of a Command Payload: 253, so that `|p| + 2` fits the 8-bit length field (R123). -/
def maxParams : Nat := maxLen - 2

/-- The value of `HOST_TO_CHIP_DIR` in the machine that `State.reset` describes. OPEN in the spec (R12, D13), so it has
no body here: nothing can be proved of its value (log entry 3). -/
opaque hostToChipDir : Byte

/-- The default of `ACCEPT_EMPTY_BODY`: "The default `false` follows §4.4" (R12, D15; log entry 3). -/
def acceptEmptyBody : Bool := false

/-- The transport oracle's draw number `k`, used by a read when no answer of the transport is written out in
`State.rxIn`. "Which bytes `RxRead` returns is a free choice of the oracle (a draw)" (R7, R27, D11): no body, so nothing
can be proved of the bytes or of how many there are (log entry 1). -/
opaque rxDraw : Nat → List Byte

end Config

end Sys2Proof
end

