-- ==== Sys2Proof/Syntax.lean ====
section
/-! DEFINITION. The operations of the block, one constructor per row of the opcode table (30_encoding.md R80, R82), with
the operands the row's format reads, in the order `A`, `B`, `V` (R86). -/

namespace Sys2Proof

/-- The 17 operations (R82). `a` and `b` are the scalar operands `A` and `B`, `v` is the byte-vector operand `V` (R5). -/
inductive Instr where
  /-- BREV, format A: reverse one byte (R101). -/
  | brev (a : Byte)
  /-- CSUM_GEN, format V: compute the checksum of a byte list (R110). -/
  | csumGen (v : List Byte)
  /-- CSUM_CHK, format AV: validate a byte list against checksum `a` (R111). -/
  | csumChk (a : Byte) (v : List Byte)
  /-- FRM_BUILD, format V: assemble a frame (R120). -/
  | frmBuild (v : List Byte)
  /-- HDR_PARSE, format V: validate a 5-byte header (R140). -/
  | hdrParse (v : List Byte)
  /-- PLD_PARSE, format AV: validate payload, checksum and postamble (R142). -/
  | pldParse (a : Byte) (v : List Byte)
  /-- ACK_MATCH, format V: recognize the Acknowledge Frame (R145). -/
  | ackMatch (v : List Byte)
  /-- CMD_BUILD, format AV: assemble a Command Payload (R122). -/
  | cmdBuild (a : Byte) (v : List Byte)
  /-- RSP_MATCH, format ABV: correlate a decoded response payload (R170). -/
  | rspMatch (a b : Byte) (v : List Byte)
  /-- WIRE_TX, format V: send logical bytes through the adapter (R102). -/
  | wireTx (v : List Byte)
  /-- WIRE_RX, format A: receive `a` bytes through the adapter (R103). -/
  | wireRx (a : Byte)
  /-- TX_FRAME, format V: assemble a frame and send it (R124). -/
  | txFrame (v : List Byte)
  /-- RX_HDR, format Z: header peek (R153). -/
  | rxHdr
  /-- RX_PLD, format Z: payload decode, length from the latch (R154). -/
  | rxPld
  /-- RX_ACK, format Z: read and recognize the Acknowledge Frame (R155). -/
  | rxAck
  /-- CMD_TX, format AV: assemble a Command Payload and its frame, and send it (R126). -/
  | cmdTx (a : Byte) (v : List Byte)
  /-- RSP_RX, format AB: receive, validate and correlate one response frame (R171). -/
  | rspRx (a b : Byte)
deriving DecidableEq, Repr

end Sys2Proof
end

