-- ==== Sys2Proof/WellFormed.lean ====
section
/-! DEFINITION. Which operations the request port can carry: "The request port cannot carry `|V| > 262`" (R5, R83).
The operand shapes of R82 are not well-formedness: an operation whose `V` breaks its shape is issued, and faults. -/

namespace Sys2Proof

/-- Whether the port carries this vector operand (R5, R83). -/
def vFits (v : List Byte) : Bool := decide (v.length ≤ Config.longestFrame)

/-- Well-formed: the operation's vector operand, if its format has one, fits the port. -/
def Instr.wf : Instr → Bool
  | .brev _ => true
  | .csumGen v => vFits v
  | .csumChk _ v => vFits v
  | .frmBuild v => vFits v
  | .hdrParse v => vFits v
  | .pldParse _ v => vFits v
  | .ackMatch v => vFits v
  | .cmdBuild _ v => vFits v
  | .rspMatch _ _ v => vFits v
  | .wireTx v => vFits v
  | .wireRx _ => true
  | .txFrame v => vFits v
  | .rxHdr => true
  | .rxPld => true
  | .rxAck => true
  | .cmdTx _ v => vFits v
  | .rspRx _ _ => true

end Sys2Proof
end

