-- ==== Sys2Proof/Decode.lean ====
section
/-! DEFINITION. The request port's fields (R5), the decoder from a request to an operation (R80 to R85), and the
encoder back. The opcode numbers are those of R82. -/

namespace Sys2Proof

/-- What the host puts on the request port (R5): the operation code and the operand fields. An operand the operation
does not read is ignored. -/
structure Request where
  /-- `OP[7:0]`. -/
  op : Byte
  /-- `A[7:0]`. -/
  a : Byte
  /-- `B[7:0]`. -/
  b : Byte
  /-- `V`, index 0 first. -/
  v : List Byte
deriving DecidableEq, Repr

/-- Why a request is no operation. -/
inductive Reject where
  /-- `OP` is unassigned (R84): the block faults with `F_ILLEGAL_OP`. -/
  | illegalOp (op : Byte)
  /-- `|V| > 262`: no such request can be on the port (R83). -/
  | portOverflow (len : Nat)
deriving DecidableEq, Repr

/-- The opcode map, read from `OP` to the operation (R82), each row reading the operands of its format (R80, R81). -/
def decodeOp (r : Request) : Option Instr :=
  match r.op with
  | 0x01#8 => some (.brev r.a)
  | 0x02#8 => some (.csumGen r.v)
  | 0x03#8 => some (.csumChk r.a r.v)
  | 0x10#8 => some (.frmBuild r.v)
  | 0x11#8 => some (.hdrParse r.v)
  | 0x12#8 => some (.pldParse r.a r.v)
  | 0x13#8 => some (.ackMatch r.v)
  | 0x20#8 => some (.cmdBuild r.a r.v)
  | 0x21#8 => some (.rspMatch r.a r.b r.v)
  | 0x30#8 => some (.wireTx r.v)
  | 0x31#8 => some (.wireRx r.a)
  | 0x32#8 => some (.txFrame r.v)
  | 0x33#8 => some .rxHdr
  | 0x34#8 => some .rxPld
  | 0x35#8 => some .rxAck
  | 0x36#8 => some (.cmdTx r.a r.v)
  | 0x37#8 => some (.rspRx r.a r.b)
  | _ => none

/-- The decoder, total on requests: what the port cannot carry is no request at all (R83), an unassigned `OP` is
rejected by name (R84), everything else is the operation of its row. -/
def decode (r : Request) : Except Reject Instr :=
  if vFits r.v then
    match decodeOp r with
    | some i => .ok i
    | none => .error (.illegalOp r.op)
  else .error (.portOverflow r.v.length)

/-- The opcode of an operation (R82). -/
def opcode : Instr → Byte
  | .brev _ => 0x01
  | .csumGen _ => 0x02
  | .csumChk _ _ => 0x03
  | .frmBuild _ => 0x10
  | .hdrParse _ => 0x11
  | .pldParse _ _ => 0x12
  | .ackMatch _ => 0x13
  | .cmdBuild _ _ => 0x20
  | .rspMatch _ _ _ => 0x21
  | .wireTx _ => 0x30
  | .wireRx _ => 0x31
  | .txFrame _ => 0x32
  | .rxHdr => 0x33
  | .rxPld => 0x34
  | .rxAck => 0x35
  | .cmdTx _ _ => 0x36
  | .rspRx _ _ => 0x37

/-- The encoder: the request of an operation, with the operand fields its format does not read left 0 or empty. -/
def encode (i : Instr) : Request :=
  match i with
  | .brev a => ⟨opcode i, a, 0, []⟩
  | .csumGen v => ⟨opcode i, 0, 0, v⟩
  | .csumChk a v => ⟨opcode i, a, 0, v⟩
  | .frmBuild v => ⟨opcode i, 0, 0, v⟩
  | .hdrParse v => ⟨opcode i, 0, 0, v⟩
  | .pldParse a v => ⟨opcode i, a, 0, v⟩
  | .ackMatch v => ⟨opcode i, 0, 0, v⟩
  | .cmdBuild a v => ⟨opcode i, a, 0, v⟩
  | .rspMatch a b v => ⟨opcode i, a, b, v⟩
  | .wireTx v => ⟨opcode i, 0, 0, v⟩
  | .wireRx a => ⟨opcode i, a, 0, []⟩
  | .txFrame v => ⟨opcode i, 0, 0, v⟩
  | .rxHdr => ⟨opcode i, 0, 0, []⟩
  | .rxPld => ⟨opcode i, 0, 0, []⟩
  | .rxAck => ⟨opcode i, 0, 0, []⟩
  | .cmdTx a v => ⟨opcode i, a, 0, v⟩
  | .rspRx a b => ⟨opcode i, a, b, []⟩

/-- Whether `OP` has a row in the opcode map (R82, R84). -/
def assigned (op : Byte) : Bool := (decodeOp ⟨op, 0, 0, []⟩).isSome

/-- Stream operations, the ones that touch the transport: opcodes 0x30 to 0x37 (R82). The others are pure. -/
def isStream (i : Instr) : Bool := decide (0x30 ≤ (opcode i).toNat)

/-- The six request formats of R80. -/
inductive Format where
  | Z | A | V | AV | AB | ABV
deriving DecidableEq, Repr

/-- The format of each assigned opcode (R80, R82), transcribed from the format table and not from `decodeOp`. -/
def formatOf (op : Byte) : Option Format :=
  if op ∈ [0x33#8, 0x34#8, 0x35#8] then some .Z
  else if op ∈ [0x01#8, 0x31#8] then some .A
  else if op ∈ [0x02#8, 0x10#8, 0x11#8, 0x13#8, 0x30#8, 0x32#8] then some .V
  else if op ∈ [0x03#8, 0x12#8, 0x20#8, 0x36#8] then some .AV
  else if op = 0x37#8 then some .AB
  else if op = 0x21#8 then some .ABV
  else none

/-- Whether the format reads `A` (R80). -/
def Format.readsA : Format → Bool
  | .A => true | .AV => true | .AB => true | .ABV => true | .Z => false | .V => false
/-- Whether the format reads `B` (R80). -/
def Format.readsB : Format → Bool
  | .AB => true | .ABV => true | .Z => false | .A => false | .V => false | .AV => false
/-- Whether the format reads `V` (R80). -/
def Format.readsV : Format → Bool
  | .V => true | .AV => true | .ABV => true | .Z => false | .A => false | .AB => false

/-- The `n` bytes of a number, least significant first. -/
def bytesOf : Nat → Nat → List Byte
  | 0, _ => []
  | n + 1, w => BitVec.ofNat 8 w :: bytesOf n (w / 256)

/-- The request written as one number: `OP` in bits 7 to 0, then `A`, `B` and the bytes of `V`, for as many whole bytes
as `nbits` gives. The opcode table gives every row 8 bits, its `OP`; the fields it gives no bits are then 0 and `V` is
empty. The spec gives the port no serial layout: DESIGN CHOICE, log entry 5. -/
def requestOfWord (nbits w : Nat) : Request :=
  let bs := bytesOf (nbits / 8) w
  ⟨bs.getD 0 0, bs.getD 1 0, bs.getD 2 0, bs.drop 3⟩

/-- The operation the decoder reads from an opcode-table word (the host's fixed name). -/
def decodeTableWord (nbits w : Nat) : Option Instr :=
  (decode (requestOfWord nbits w)).toOption

end Sys2Proof
end

