-- ==== Sys2Proof/Machine/State.lean ====
section
/-! DEFINITION. The state of the block (10_state.md R20 to R34), what the model adds to it to be one deterministic
machine (the host's requests and the transport's answers, as plain data), and the reasons a step can stop. -/

namespace Sys2Proof.Machine

/-- The fault reasons that `FAULT` can hold (R25, R205). -/
inductive FaultReason where
  /-- `F_ILLEGAL_OP`: `OP` not in R82. -/
  | illegalOp
  /-- `F_OPERAND`: `V` has the wrong length for the operation. -/
  | operand
  /-- `F_TX_TOO_LONG`: the payload would exceed the 8-bit length field. -/
  | txTooLong
deriving DecidableEq, Repr

/-- One move of the host agent (R4): it issues a request, or it resets the block between requests (R232). -/
inductive HostMove where
  /-- A request on the request port (R5). -/
  | request (r : Request)
  /-- Reset, "a host action between requests. It has no request encoding" (R232). -/
  | reset
deriving DecidableEq, Repr

/-- The machine. The first eight fields are the spec's; the last four are the model's own (log entries 1, 2, 3). -/
structure State where
  /-- `ST`: the status code of the last completed operation (R21, R200). -/
  st : Byte
  /-- `RES`: the scalar result (R22). -/
  res : Byte
  /-- `BUF`: the vector result, 0 to 262 bytes (R23). -/
  buf : List Byte
  /-- `RXL`: the declared-length latch, `NONE` or one byte (R24). -/
  rxl : Option Byte
  /-- `FAULT`: `NONE` or the reason and the faulting request's `OP` (R25). -/
  fault : Option (FaultReason × Byte)
  /-- `TXLOG`: the wire bytes passed to `TxWrite` since reset, oldest first (R26). -/
  txLog : List Byte
  /-- `RXLOG`: each `RxRead(n)` with the bytes returned, oldest first (R27). -/
  rxLog : List (Nat × List Byte)
  /-- "pc": the index of the next request; it advances by one per completed request (R20, R230). -/
  pc : Nat
  /-- The two parameters of R12, which no operation writes (R28). The model's own place for them. -/
  params : Params
  /-- The host's moves not yet taken, next first: the requests of R20 and the resets of R232. The model's own. -/
  pending : List HostMove
  /-- The transport's answers written out, next first (R7, R27): each entry is bytes a read may take from, at most one
  entry a read, what is left of an entry staying for the next read. The model's own. -/
  rxIn : List (List Byte)
  /-- How many reads have drawn their answer from `Config.rxDraw` because `rxIn` listed none. The model's own. -/
  rxDraws : Nat
deriving DecidableEq, Repr

/-- Why the machine stops. -/
inductive Fault where
  /-- Raised by `step` when `FAULT` holds a value and the host issues a request: "Once `FAULT` is not `NONE`, the block
  takes no further step" (R25, R206). Safe: it is the stop the spec gives. -/
  | blockFaulted (reason : FaultReason) (op : Byte)
deriving DecidableEq, Repr

/-- Why a step is refused. -/
inductive Refusal where
  /-- An operation without a meaning, named in `exec`'s arm. No arm of this model raises it. Safe. -/
  | notModelled (mnemonic : String)
  /-- Raised by `step` for a pending request with `|V| > 262`: "The request port cannot carry `|V| > 262`" (R83), so the
  host has no such move. Safe: the hardware has no behaviour here. -/
  | portOverflow (len : Nat)
deriving DecidableEq, Repr

/-- The reset state, R230's table: `ST = OK`, `RES = 0`, `BUF = []`, `RXL = NONE`, `FAULT = NONE`, `TXLOG = []`,
`RXLOG = []`, "pc" = 0. The four fields of the model's own: the parameters as `Config` has them, no host move waiting
and no transport answer written out (log entries 1, 2, 3). -/
def State.reset : State where
  st := 0x00
  res := 0x00
  buf := []
  rxl := none
  fault := none
  txLog := []
  rxLog := []
  pc := 0
  params := ⟨Config.hostToChipDir, Config.acceptEmptyBody⟩
  pending := []
  rxIn := []
  rxDraws := 0

end Sys2Proof.Machine
end

