-- ==== Sys2Proof/Machine/Operands.lean ====
section
/-! DEFINITION. Operand assembly (R81), the shape each operation requires of `V` (R82, R83), the bit adapter's reversal
(R100) and the wire form of a list (R66). -/

namespace Sys2Proof.Machine

/-- An operand that is a count or a limit: its value as a natural number, `zext` (R81). -/
def count (b : Byte) : Nat := b.toNat

/-- The length of a list as a byte, for `RES` and the frame's LEN field (R22, R60). -/
def lenByte (l : List Byte) : Byte := BitVec.ofNat 8 l.length

/-- `L[i]`, for an `i` inside the list (R14). -/
def byteAt (l : List Byte) (i : Nat) : Byte := l.getD i 0

/-- `L[i..j)` (R14). -/
def slice (l : List Byte) (i j : Nat) : List Byte := (l.take j).drop i

/-- `brev`: bit `i` of the result is bit `7 - i` of the byte (R100). -/
def brev (b : Byte) : Byte :=
  BitVec.ofBoolListLE [b.getLsbD 7, b.getLsbD 6, b.getLsbD 5, b.getLsbD 4, b.getLsbD 3, b.getLsbD 2, b.getLsbD 1, b.getLsbD 0]

/-- The wire form of a list of logical bytes (R42, R66): each byte reversed once, in the same order. -/
def toWire (l : List Byte) : List Byte := l.map brev

/-- The logical form of received wire bytes (R42, R105): each byte reversed once, in the same order. -/
def fromWire (l : List Byte) : List Byte := l.map brev

/-- The operand shape required of each operation, the fourth column of R82: `none` where the request has it, else the
fault it raises (R83, R205). -/
def shapeFault : Instr → Option FaultReason
  | .brev _ => none
  | .csumGen _ => none
  | .csumChk _ _ => none
  | .frmBuild v => if v.length ≤ Config.maxLen then none else some .txTooLong
  | .hdrParse v => if v.length = Config.hdrBytes then none else some .operand
  | .pldParse a v => if v.length = count a + 2 then none else some .operand
  | .ackMatch v => if v.length = Config.ackBytes then none else some .operand
  | .cmdBuild _ v => if v.length ≤ Config.maxParams then none else some .txTooLong
  | .rspMatch _ _ v => if v.length ≤ Config.maxLen then none else some .operand
  | .wireTx _ => none
  | .wireRx _ => none
  | .txFrame v => if v.length ≤ Config.maxLen then none else some .txTooLong
  | .rxHdr => none
  | .rxPld => none
  | .rxAck => none
  | .cmdTx _ v => if v.length ≤ Config.maxParams then none else some .txTooLong
  | .rspRx _ _ => none

end Sys2Proof.Machine
end

