-- ==== Sys2Proof/Machine/Flags.lean ====
section
/-! DEFINITION. The status codes (R200), the checksum (R112), and the checks whose outcome a status code reports: header
(R141), payload (R143), acknowledge (R146) and response (R172), each in the order of R203. -/

namespace Sys2Proof.Machine

/-- The failure kinds and success, as `ST` names them (R200). -/
inductive Status where
  | ok | eStart | eLcs | eDcs | ePost | eAck | eCsum | eShortLen | eDir | eCmd | eBodyEmpty | eBodyOvf | eSeq | eShortRead
deriving DecidableEq, Repr

/-- The 8-bit code of each status (R200). -/
def Status.code : Status → Byte
  | .ok => 0x00
  | .eStart => 0x01
  | .eLcs => 0x02
  | .eDcs => 0x03
  | .ePost => 0x04
  | .eAck => 0x05
  | .eCsum => 0x06
  | .eShortLen => 0x07
  | .eDir => 0x08
  | .eCmd => 0x09
  | .eBodyEmpty => 0x0A
  | .eBodyOvf => 0x0B
  | .eSeq => 0x0C
  | .eShortRead => 0x0D

/-- `FAILED = (ST != OK)`, the one boolean the source's caller sees (R29, R201). -/
def State.failed (s : State) : Bool := s.st != Status.code .ok

/-- `sum(L)`: the exact natural-number sum of the bytes (R14, R112). -/
def byteSum : List Byte → Nat
  | [] => 0
  | b :: l => b.toNat + byteSum l

/-- `cs(L) = (256 - (sum(L) mod 256)) mod 256` (R112). -/
def checksum (l : List Byte) : Byte := BitVec.ofNat 8 ((256 - byteSum l % 256) % 256)

/-- The modular-sum check of a list with its checksum byte: `(sum(L) + c) mod 256 = 0` (R113). -/
def sumsToZero (l : List Byte) (c : Byte) : Bool := (byteSum l + c.toNat) % 256 == 0

/-- `hdr_check` on a 5-byte list (R141): start bytes, then the length-checksum; the declared LEN where both hold. -/
def hdrCheck (h : List Byte) : Except Status Byte :=
  if byteAt h 0 ≠ Config.preamble ∨ byteAt h 1 ≠ Config.start1 ∨ byteAt h 2 ≠ Config.start2 then .error .eStart
  else if sumsToZero [byteAt h 3] (byteAt h 4) then .ok (byteAt h 3)
  else .error .eLcs

/-- `pld_check` on a list of `n + 2` bytes (R143): payload-checksum, then postamble; the payload where both hold. -/
def pldCheck (n : Nat) (t : List Byte) : Except Status (List Byte) :=
  if sumsToZero (slice t 0 n) (byteAt t n) then
    if byteAt t (n + 1) = Config.postamble then .ok (slice t 0 n) else .error .ePost
  else .error .eDcs

/-- `ack_check` on a 6-byte list (R146): the exact compare with the Acknowledge Frame. -/
def ackCheck (a : List Byte) : Except Status Unit :=
  if a = Config.ackPattern then .ok () else .error .eAck

/-- `(c + 1) mod 256`, the echo a response to command `c` must carry (R70). -/
def expectedEcho (c : Byte) : Byte := BitVec.ofNat 8 ((c.toNat + 1) % 256)

/-- `rsp_check(P, c, m)` (R172): length, direction, echo, empty body, capacity, in that order; the body where all hold. -/
def rspCheck (cfg : Params) (p : List Byte) (c : Byte) (m : Nat) : Except Status (List Byte) :=
  if p.length < Config.minRspLen then .error .eShortLen
  else if byteAt p 0 ≠ Config.chipToHostDir then .error .eDir
  else if byteAt p 1 ≠ expectedEcho c then .error .eCmd
  else if (slice p 2 p.length).length = 0 ∧ cfg.acceptEmptyBody = false then .error .eBodyEmpty
  else if (slice p 2 p.length).length > m then .error .eBodyOvf
  else .ok (slice p 2 p.length)

end Sys2Proof.Machine
end

