-- ==== Sys2Proof/Machine/Ops.lean ====
section
/-! DEFINITION. The named operations on the state: the pseudocode primitives of R15, the transport ports (R7, R26, R27),
fault entry (R206), the outcome of a check (R203, R204), and reset as a host action (R230 to R232). -/

namespace Sys2Proof.Machine

/-- `RES <- v` (R15). -/
def State.setRes (v : Byte) (s : State) : State := { s with res := v }

/-- `BUF <- l` (R15). -/
def State.setBuf (l : List Byte) (s : State) : State := { s with buf := l }

/-- `RXL <- LEN` (R15, R24). -/
def State.latch (len : Byte) (s : State) : State := { s with rxl := some len }

/-- `RXL <- NONE` (R15, R24). -/
def State.clearLatch (s : State) : State := { s with rxl := none }

/-- `ok()`: `ST <- OK` (R15). -/
def State.ok (s : State) : State := { s with st := Status.code .ok }

/-- `fail(code)`: `ST <- code`, with `RES`, `BUF` and the effects so far left as they are (R15, R204). -/
def State.fail (c : Status) (s : State) : State := { s with st := Status.code c }

/-- `fault(reason)`, fault entry: `FAULT <- (reason, OP)` and no other effect (R15, R25, R206). -/
def State.raiseFault (reason : FaultReason) (op : Byte) (s : State) : State := { s with fault := some (reason, op) }

/-- `TxWrite(w)`: `TXLOG <- TXLOG ++ w` (R7, R26). The whole list is always taken (D12). -/
def State.txWrite (w : List Byte) (s : State) : State := { s with txLog := s.txLog ++ w }

/-- The wire bytes `RxRead(n)` returns: at most `n`, from the next answer written out in `rxIn`, and the oracle's free
draw where none is written out (R7, R27, D11; log entry 1). -/
def State.rxAnswer (n : Nat) (s : State) : List Byte :=
  match s.rxIn with
  | [] => (Config.rxDraw s.rxDraws).take n
  | b :: _ => b.take n

/-- What is left of `rxIn` after `RxRead(n)`: the bytes returned are consumed (R7, R46), the others of that entry stay. -/
def State.rxLeft (n : Nat) (s : State) : List (List Byte) :=
  match s.rxIn with
  | [] => []
  | b :: rest => if b.length ≤ n then rest else b.drop n :: rest

/-- How many draws have been used after a read: one more exactly when `rxIn` wrote no answer out. -/
def State.rxDrawsNext (s : State) : Nat :=
  match s.rxIn with
  | [] => s.rxDraws + 1
  | _ :: _ => s.rxDraws

/-- The state after `RxRead(n)`: the bytes are consumed and the call is in `RXLOG` (R7, R27). -/
def State.rxRead (n : Nat) (s : State) : State :=
  { s with
    rxIn := s.rxLeft n
    rxDraws := s.rxDrawsNext
    rxLog := s.rxLog ++ [(n, s.rxAnswer n)] }

/-- The receive path every RX operation uses (R103, R105): `RxRead(n)`, `E_SHORT_READ` when fewer than `n` bytes came,
else `k` on the logical bytes. -/
def State.receiving (n : Nat) (s : State) (k : List Byte → State → State) : State :=
  if (s.rxAnswer n).length < n then (s.rxRead n).fail .eShortRead
  else k (fromWire (s.rxAnswer n)) (s.rxRead n)

/-- `if r is an error: fail(r)`, else go on with what the check returned (R203, R204). -/
def State.judge {α : Type} (s : State) (r : Except Status α) (k : α → State) : State :=
  match r with
  | .error c => s.fail c
  | .ok x => k x

/-- The shape guard before any other effect (R83, R206): the fault of the operation's R82 row, else the operation. -/
def State.shaped (s : State) (i : Instr) (body : State) : State :=
  match shapeFault i with
  | some reason => s.raiseFault reason (opcode i)
  | none => body

/-- Reset as the host action of R230 to R232: every register and log of the block at its reset value, "pc" 0. It has no
transport effect (R231), so the transport's answers and draws stay; the parameters are fixed for the run (R28). `rest`
is what the host does next (log entry 2). -/
def State.hostReset (rest : List HostMove) (s : State) : State :=
  { State.reset with
    params := s.params
    pending := rest
    rxIn := s.rxIn
    rxDraws := s.rxDraws }

end Sys2Proof.Machine
end

