-- ==== Sys2Proof/Machine/BitAdapter.lean ====
section
/-! DEFINITION. The Bit Adapter family: BREV, WIRE_TX, WIRE_RX (40_bit_adapter.md). -/

namespace Sys2Proof.Machine

/-- BREV (R101). -/
def execBrev (a : Byte) (s : State) : Host.Outcome State Fault Refusal :=
  .next (s.setRes (brev a)).ok

/-- WIRE_TX (R102). -/
def execWireTx (v : List Byte) (s : State) : Host.Outcome State Fault Refusal :=
  .next ((s.txWrite (toWire v)).clearLatch).ok

/-- WIRE_RX (R103). -/
def execWireRx (a : Byte) (s : State) : Host.Outcome State Fault Refusal :=
  .next (s.clearLatch.receiving (count a) fun bytes s1 => ((s1.setBuf bytes).setRes a).ok)

end Sys2Proof.Machine
end

