-- ==== Sys2Proof/Machine/Checksum.lean ====
section
/-! DEFINITION. The frame checksum validator family: CSUM_GEN, CSUM_CHK (41_checksum.md). -/

namespace Sys2Proof.Machine

/-- CSUM_GEN (R110). -/
def execCsumGen (v : List Byte) (s : State) : Host.Outcome State Fault Refusal :=
  .next (s.setRes (checksum v)).ok

/-- CSUM_CHK (R111). -/
def execCsumChk (a : Byte) (v : List Byte) (s : State) : Host.Outcome State Fault Refusal :=
  .next (if sumsToZero v a then s.ok else s.fail .eCsum)

end Sys2Proof.Machine
end

