-- ==== Sys2Proof/Machine/Envelope.lean ====
section
/-! DEFINITION. The response envelope family: RSP_MATCH, RSP_RX (44_envelope.md). -/

namespace Sys2Proof.Machine

/-- RSP_MATCH (R170). -/
def execRspMatch (a b : Byte) (v : List Byte) (s : State) : Host.Outcome State Fault Refusal :=
  .next (s.shaped (.rspMatch a b v)
    (s.judge (rspCheck s.params v a (count b)) fun body => ((s.setBuf body).setRes (lenByte body)).ok))

/-- The second half of RSP_RX (R171), after a valid header declared LEN `n`: the LEN < 2 rejection before any payload
byte is read, the payload read and check, then the response check. -/
def State.rspPayload (n a b : Byte) (s : State) : State :=
  if count n < Config.minRspLen then s.fail .eShortLen
  else s.receiving (count n + 2) fun t s2 =>
    s2.judge (pldCheck (count n) t) fun p =>
      s2.judge (rspCheck s2.params p a (count b)) fun body => ((s2.setBuf body).setRes (lenByte body)).ok

/-- RSP_RX (R171). -/
def execRspRx (a b : Byte) (s : State) : Host.Outcome State Fault Refusal :=
  .next (s.clearLatch.receiving Config.hdrBytes fun h s1 =>
    s1.judge (hdrCheck h) fun n => s1.rspPayload n a b)

end Sys2Proof.Machine
end

