-- ==== Sys2Proof/Machine/FrameBuild.lean ====
section
/-! DEFINITION. The frame assembly family: FRM_BUILD, CMD_BUILD, TX_FRAME, CMD_TX (42_frame_build.md). -/

namespace Sys2Proof.Machine

/-- `frame(P)`: preamble, start bytes, LEN, LCS, payload, DCS, postamble (R60, R121). LCS is the checksum of the
one-byte list `[LEN]` (R113). -/
def frame (p : List Byte) : List Byte :=
  [Config.preamble, Config.start1, Config.start2, lenByte p, checksum [lenByte p]] ++ p ++ [checksum p, Config.postamble]

/-- `cmd_payload(c, p) = [HOST_TO_CHIP_DIR, c] ++ p` (R67, R123). -/
def cmdPayload (cfg : Params) (c : Byte) (p : List Byte) : List Byte := cfg.hostToChipDir :: c :: p

/-- Frame a payload and send it, the part TX_FRAME and CMD_TX share (R124, R126): one `TxWrite` of the wire form, then
`RXL <- NONE`, `BUF` the logical frame, `RES` the payload length. -/
def State.sendFrame (p : List Byte) (s : State) : State :=
  ((((s.txWrite (toWire (frame p))).clearLatch).setBuf (frame p)).setRes (lenByte p)).ok

/-- FRM_BUILD (R120). -/
def execFrmBuild (v : List Byte) (s : State) : Host.Outcome State Fault Refusal :=
  .next (s.shaped (.frmBuild v) ((s.setBuf (frame v)).setRes (lenByte v)).ok)

/-- CMD_BUILD (R122). -/
def execCmdBuild (a : Byte) (v : List Byte) (s : State) : Host.Outcome State Fault Refusal :=
  .next (s.shaped (.cmdBuild a v)
    ((s.setBuf (cmdPayload s.params a v)).setRes (lenByte (cmdPayload s.params a v))).ok)

/-- TX_FRAME (R124). -/
def execTxFrame (v : List Byte) (s : State) : Host.Outcome State Fault Refusal :=
  .next (s.shaped (.txFrame v) (s.sendFrame v))

/-- CMD_TX (R126). -/
def execCmdTx (a : Byte) (v : List Byte) (s : State) : Host.Outcome State Fault Refusal :=
  .next (s.shaped (.cmdTx a v) (s.sendFrame (cmdPayload s.params a v)))

end Sys2Proof.Machine
end

