-- ==== Sys2Proof/Machine/FrameParse.lean ====
section
/-! DEFINITION. The frame parsing family: HDR_PARSE, PLD_PARSE, ACK_MATCH, RX_HDR, RX_PLD, RX_ACK (43_frame_parse.md). -/

namespace Sys2Proof.Machine

/-- HDR_PARSE (R140). -/
def execHdrParse (v : List Byte) (s : State) : Host.Outcome State Fault Refusal :=
  .next (s.shaped (.hdrParse v) (s.judge (hdrCheck v) fun len => (s.setRes len).ok))

/-- PLD_PARSE (R142). -/
def execPldParse (a : Byte) (v : List Byte) (s : State) : Host.Outcome State Fault Refusal :=
  .next (s.shaped (.pldParse a v)
    (s.judge (pldCheck (count a) v) fun p => ((s.setBuf p).setRes a).ok))

/-- ACK_MATCH (R145). -/
def execAckMatch (v : List Byte) (s : State) : Host.Outcome State Fault Refusal :=
  .next (s.shaped (.ackMatch v) (s.judge (ackCheck v) fun _ => s.ok))

/-- RX_HDR (R153). -/
def execRxHdr (s : State) : Host.Outcome State Fault Refusal :=
  .next (s.clearLatch.receiving Config.hdrBytes fun h s1 =>
    s1.judge (hdrCheck h) fun len => ((s1.latch len).setRes len).ok)

/-- RX_PLD (R154): the length comes from the latch; with none latched it fails and reads nothing. -/
def execRxPld (s : State) : Host.Outcome State Fault Refusal :=
  .next (match s.rxl with
    | none => s.fail .eSeq
    | some n =>
      s.clearLatch.receiving (count n + 2) fun t s1 =>
        s1.judge (pldCheck (count n) t) fun p => ((s1.setBuf p).setRes n).ok)

/-- RX_ACK (R155): it writes `ST` and `RXL` alone. Where R156 would have it leave a `RES`, see log entry 7. -/
def execRxAck (s : State) : Host.Outcome State Fault Refusal :=
  .next (s.clearLatch.receiving Config.ackBytes fun a s1 => s1.judge (ackCheck a) fun _ => s1.ok)

end Sys2Proof.Machine
end

