-- ==== Sys2Proof/Machine/Dispatch.lean ====
section
/-! DEFINITION. The dispatch: one arm per operation, each a direct call of its meaning. -/

namespace Sys2Proof.Machine

def exec (i : Instr) (s : State) : Host.Outcome State Fault Refusal :=
  match i with
  | .brev a => Sys2Proof.Machine.execBrev a s
  | .csumGen v => Sys2Proof.Machine.execCsumGen v s
  | .csumChk a v => Sys2Proof.Machine.execCsumChk a v s
  | .frmBuild v => Sys2Proof.Machine.execFrmBuild v s
  | .hdrParse v => Sys2Proof.Machine.execHdrParse v s
  | .pldParse a v => Sys2Proof.Machine.execPldParse a v s
  | .ackMatch v => Sys2Proof.Machine.execAckMatch v s
  | .cmdBuild a v => Sys2Proof.Machine.execCmdBuild a v s
  | .rspMatch a b v => Sys2Proof.Machine.execRspMatch a b v s
  | .wireTx v => Sys2Proof.Machine.execWireTx v s
  | .wireRx a => Sys2Proof.Machine.execWireRx a s
  | .txFrame v => Sys2Proof.Machine.execTxFrame v s
  | .rxHdr => Sys2Proof.Machine.execRxHdr s
  | .rxPld => Sys2Proof.Machine.execRxPld s
  | .rxAck => Sys2Proof.Machine.execRxAck s
  | .cmdTx a v => Sys2Proof.Machine.execCmdTx a v s
  | .rspRx a b => Sys2Proof.Machine.execRspRx a b s

end Sys2Proof.Machine
end

