-- ==== Sys2Proof/Machine/Port.lean ====
section
/-! DEFINITION. The request port: what the block does with the host's next move (R4, R20, R84, R206, R209, R214), and
how a completed request moves the index of the next one (R20). -/

namespace Sys2Proof.Machine

/-- What the next step is to do. -/
inductive Fetched where
  /-- The step ends here, in this state: idle, a reset, or the fault entry of an unassigned `OP`. -/
  | settled (s : State)
  /-- Run this operation from this state, whose request has been taken off the port. -/
  | run (i : Instr) (s : State)
  /-- The block takes no step. -/
  | stuck (f : Fault)
  /-- No such move exists. -/
  | refuse (r : Refusal)
deriving DecidableEq, Repr

/-- Look at the host's next move. With none the block is idle and keeps all state (R214). A reset is taken whatever
`FAULT` holds (R232). With `FAULT` set "no new request is examined at all" (R209): it is not taken off the port, and as the
block takes no step, a reset listed behind it is not reached. What becomes of such a request when the host resets the spec
does not say (R25, R207): DESIGN CHOICE, log entry 4. Otherwise the request is taken off the port and decoded: an unassigned
`OP` enters the fault (R84, R206). -/
def State.fetch (s : State) : Fetched :=
  match s.pending with
  | [] => .settled s
  | .reset :: rest => .settled (s.hostReset rest)
  | .request r :: rest =>
    match s.fault with
    | some (reason, op) => .stuck (.blockFaulted reason op)
    | none =>
      match decode r with
      | .ok i => .run i { s with pending := rest }
      | .error (.illegalOp op) => .settled (State.raiseFault .illegalOp op { s with pending := rest })
      | .error (.portOverflow n) => .refuse (.portOverflow n)

/-- A request that completed moves "pc" by one; one that faulted did not complete, and "pc" stays (R20, R206). -/
def State.complete (s : State) : State :=
  match s.fault with
  | none => { s with pc := s.pc + 1 }
  | some _ => s

/-- Completion applied to an operation's outcome. -/
def retire (o : Host.Outcome State Fault Refusal) : Host.Outcome State Fault Refusal :=
  match o with
  | .next s => .next s.complete
  | .fault f => .fault f
  | .refused r => .refused r

end Sys2Proof.Machine
end

