-- ==== Sys2Proof/Machine/Step.lean ====
section
/-! DEFINITION. One step: the host's next move, one request being one atomic step (R3, R45, R48). -/

namespace Sys2Proof.Machine

/-- One step of the machine. -/
def step (s : State) : Host.Outcome State Fault Refusal :=
  match s.fetch with
  | .settled t => .next t
  | .run i t => retire (exec i t)
  | .stuck f => .fault f
  | .refuse r => .refused r

/-- `s` with the request of an opcode-table word as the host's next move (the host's fixed name). The block fetches
nothing (R52): the request is put on the request port, before the moves already waiting (log entries 2, 5). -/
def State.withFetchWord (s : State) (nbits w : Nat) : State :=
  { s with pending := .request (requestOfWord nbits w) :: s.pending }

end Sys2Proof.Machine
end

