-- ==== Sys2Proof/Machine/HostSide.lean ====
section
/-! DEFINITION. What the spec says of the host's side of the block: the result port (R6), the assembler's notation (R86)
and pseudo-operations (R87), the numbers it gives for the layers around the block (R72, R106, R233), and the host's duties R240 to R243 as a check over a record of what the host did. The block enforces none of the
duties ("none of them may be read as a guarantee of the block"): no step reads anything of this file; a claim may take a
dutiful record as its premise (70_reset_and_hazards.md §3). -/

namespace Sys2Proof.Machine

/-- What the host can read after an operation (R6). -/
structure Results where
  /-- `ST`. -/
  st : Byte
  /-- `RES`. -/
  res : Byte
  /-- `BUF`. -/
  buf : List Byte
deriving DecidableEq, Repr

/-- The result port: `ST`, `RES` and `BUF` (R6). -/
def State.resultPort (s : State) : Results := ⟨s.st, s.res, s.buf⟩

/-- `FAILED`, as the host computes it from the result port (R29). -/
def Results.failed (r : Results) : Bool := r.st != Status.code .ok

/-- A step of a pseudo-operation's expansion (R87): a request to the block, or the host's own `wait_ready`. -/
inductive ExpandedStep where
  | request (i : Instr)
  | waitReady
deriving DecidableEq, Repr

/-- `LCS_GEN a` expands to `CSUM_GEN [a]` (R87). -/
def lcsGen (a : Byte) : List ExpandedStep := [.request (.csumGen [a])]

/-- `LCS_CHK a, c` expands to `CSUM_CHK c, [a]` (R87). -/
def lcsChk (a c : Byte) : List ExpandedStep := [.request (.csumChk c [a])]

/-- `WRITE_COMMAND c, [p]` expands to `CMD_TX c, [p]`; host `wait_ready`; `RX_ACK` (R87). -/
def writeCommand (c : Byte) (p : List Byte) : List ExpandedStep := [.request (.cmdTx c p), .waitReady, .request .rxAck]

/-- `READ_RESPONSE c, m` expands to host `wait_ready`, then `RSP_RX c, m` (R87). -/
def readResponse (c m : Byte) : List ExpandedStep := [.waitReady, .request (.rspRx c m)]

/-- The one chip command code the source fixes, "get firmware version" (R72). The block treats every code as opaque. -/
def getFirmwareVersion : Byte := 0x02

/-- The initialization sequence of R233, built on the block: ask for the firmware version and read the response. -/
def initSequence : List ExpandedStep := writeCommand getFirmwareVersion [] ++ readResponse getFirmwareVersion 4

/-- The logical Ready Status that says a response frame is available (R106, R240). -/
def readyStatus : Byte := 0x01

/-- The same on the wire: status reads go through the adapter too (R106). -/
def readyStatusOnWire : Byte := brev readyStatus

/-- One hexadecimal digit (R14). -/
def hexDigit (n : Nat) : Char := "0123456789ABCDEF".toList.getD n '0'

/-- A byte as two hexadecimal digits, `NN` (R14). -/
def hexByte (b : Byte) : String := String.ofList [hexDigit (b.toNat / 16), hexDigit (b.toNat % 16)]

/-- A scalar operand in the form `0xNN` (R14, R86). -/
def hexScalar (b : Byte) : String := "0x" ++ hexByte b

/-- `V` as "a bracketed byte list in hex" (R86). -/
def hexList (v : List Byte) : String := "[" ++ " ".intercalate (v.map hexByte) ++ "]"

/-- A request in the assembler's notation: the mnemonic, then the operands in the order `A`, `B`, `V` (R86). A count or a
limit (R81) stands in decimal as in the rule's examples. -/
def assembler : Instr → String
  | .brev a => "BREV " ++ hexScalar a
  | .csumGen v => "CSUM_GEN " ++ hexList v
  | .csumChk a v => "CSUM_CHK " ++ hexScalar a ++ ", " ++ hexList v
  | .frmBuild v => "FRM_BUILD " ++ hexList v
  | .hdrParse v => "HDR_PARSE " ++ hexList v
  | .pldParse a v => "PLD_PARSE " ++ toString (count a) ++ ", " ++ hexList v
  | .ackMatch v => "ACK_MATCH " ++ hexList v
  | .cmdBuild a v => "CMD_BUILD " ++ hexScalar a ++ ", " ++ hexList v
  | .rspMatch a b v => "RSP_MATCH " ++ hexScalar a ++ ", " ++ toString (count b) ++ ", " ++ hexList v
  | .wireTx v => "WIRE_TX " ++ hexList v
  | .wireRx a => "WIRE_RX " ++ toString (count a)
  | .txFrame v => "TX_FRAME " ++ hexList v
  | .rxHdr => "RX_HDR"
  | .rxPld => "RX_PLD"
  | .rxAck => "RX_ACK"
  | .cmdTx a v => "CMD_TX " ++ hexScalar a ++ ", " ++ hexList v
  | .rspRx a b => "RSP_RX " ++ hexScalar a ++ ", " ++ toString (count b)

/-- How far a read bracket has come. One bracket holds one transfer (R243). -/
inductive ReadStage where
  /-- Nothing read yet. -/
  | empty
  /-- WIRE_RX has read; further WIRE_RX belong to the same transfer. -/
  | raw
  /-- A successful RX_HDR was the last transport access: RX_PLD may follow (R241). -/
  | header
  /-- The bracket's transfer is over. -/
  | over
deriving DecidableEq, Repr

/-- The chip-select bracket the host holds open (R243). -/
inductive Bracket where
  | closed
  /-- A write bracket, and whether its frame has been sent. -/
  | write (sent : Bool)
  | read (stage : ReadStage)
deriving DecidableEq, Repr

/-- Where the host stands in the order command, acknowledge, response (R242). -/
inductive AckStage where
  /-- No command waits for its acknowledge: none was sent by CMD_TX, or the last RX_ACK succeeded. One RX_ACK is not used
  up by the response read after it (R242 does not say): DESIGN CHOICE, log entry 6. -/
  | settled
  /-- After CMD_TX, before its RX_ACK. -/
  | awaited
  /-- The acknowledge did not arrive or did not match: the response is not read, by RX_HDR or RSP_RX. A raw read by WIRE_RX
  is not barred (R242 does not say): DESIGN CHOICE, log entry 6. -/
  | missed
deriving DecidableEq, Repr

/-- One thing the host does (R232, R240 to R243). `issue` is an operation that completed, with what it left on the result
port. A request that faults has no effect the duties speak of, and is no act of a record. -/
inductive HostAct where
  /-- `wait_ready`, with whether it ended in success (Ready Status 0x01). -/
  | waitReady (ready : Bool)
  /-- Open a write bracket. -/
  | openWrite
  /-- Open a data-read bracket. -/
  | openRead
  /-- Close the bracket. -/
  | close
  /-- Take a byte sequence that did not come in by WIRE_RX (a frame built, bytes of the host's own), to parse it. It
  replaces the sequence held; a WIRE_RX after it appends (log entry 6). -/
  | hold (bytes : List Byte)
  /-- Reset the block (R232). -/
  | reset
  /-- Issue an operation, which completed and left this on the result port. -/
  | issue (i : Instr) (seen : Results)
deriving DecidableEq, Repr

/-- What must be remembered of the past to judge the host's next act. -/
structure Watch where
  /-- The open bracket (R241, R243). -/
  bracket : Bracket
  /-- `wait_ready` succeeded (R240), and since then no other `wait_ready` ran, no CMD_TX was sent and no frame was read. A
  WIRE_TX, TX_FRAME or WIRE_RX after it leaves it standing: R240 does not say, DESIGN CHOICE, log entry 6. -/
  ready : Bool
  /-- The order command, acknowledge, response (R242). -/
  ack : AckStage
  /-- The byte sequence the host parses from: what consecutive WIRE_RX of one bracket read, or what it took by `hold` with
  what WIRE_RX read after that in the open bracket. So a header taken by `hold` may be followed by bytes read off the wire:
  R241 does not say whether the two may come from different sources, DESIGN CHOICE, log entry 6. -/
  held : List Byte
  /-- The header of the last HDR_PARSE, if it succeeded (R241). -/
  header : Option (List Byte)
deriving DecidableEq, Repr

/-- Before the host has done anything. No command waits for its acknowledge, so a response may be read, after `wait_ready`,
also where no CMD_TX was ever sent: R242 speaks only of what follows one. DESIGN CHOICE, log entry 6. -/
def Watch.start : Watch := ⟨.closed, false, .settled, [], none⟩

/-- Whether PLD_PARSE of `v` with length `a` is aligned with the header parsed: `a` is that header's LEN, and `v` is "the
bytes that follow the header" in the sequence the host holds (R241). -/
def Watch.aligned (w : Watch) (a : Byte) (v : List Byte) : Bool :=
  match w.header with
  | none => false
  | some h => decide (byteAt h 3 = a) && decide (h ++ v <:+: w.held)

/-- Whether a frame may be read in the open bracket: nothing was read in it yet, and `wait_ready` succeeded (R240, R243). -/
def Watch.mayReadFrame (w : Watch) : Bool := decide (w.bracket = .read .empty) && w.ready

/-- The watch after a frame was read, the bracket being left at `stage`. A frame read uses up `ready`, and the bytes it
takes break the sequence held (log entry 6). -/
def Watch.frameRead (w : Watch) (stage : ReadStage) : Watch :=
  { w with bracket := .read stage, ready := false, held := [] }

/-- One completed operation against the duties: `none` where issuing it here breaks one. What R240 to R243 leave open is
settled as log entry 6 says, DESIGN CHOICE: any number of WIRE_TX may share a bracket, alone or before its transfer (R243);
RX_HDR and RSP_RX may run where no CMD_TX was sent, and more than once after one RX_ACK (R242); WIRE_RX may run in every
`AckStage`, also after a failed RX_ACK (R242), and without `wait_ready` (R240); what it reads is appended to the sequence
held, also where that began with bytes taken by `hold` (R241). -/
def Watch.issue (w : Watch) (i : Instr) (seen : Results) : Option Watch :=
  match i with
  | .brev _ => some w
  | .csumGen _ => some w
  | .csumChk _ _ => some w
  | .frmBuild _ => some w
  | .hdrParse v => some { w with header := if seen.failed then none else some v }
  | .pldParse a v => if w.aligned a v then some w else none
  | .ackMatch _ => some w
  | .cmdBuild _ _ => some w
  | .rspMatch _ _ _ => some w
  | .wireTx _ => if w.bracket = .write false ∨ w.bracket = .read .empty then some w else none
  | .wireRx _ =>
    if w.bracket = .read .empty ∨ w.bracket = .read .raw then
      some { w with bracket := .read .raw, held := if seen.failed then [] else w.held ++ seen.buf }
    else none
  | .txFrame _ =>
    if w.bracket = .write false ∧ w.ack ≠ .awaited then some { w with bracket := .write true } else none
  | .rxHdr =>
    if w.mayReadFrame ∧ w.ack = .settled then some (w.frameRead (if seen.failed then .over else .header)) else none
  | .rxPld => if w.bracket = .read .header then some (w.frameRead .over) else none
  | .rxAck =>
    if w.mayReadFrame then some { w.frameRead .over with ack := if seen.failed then .missed else .settled } else none
  | .cmdTx _ _ =>
    if w.bracket = .write false ∧ w.ack ≠ .awaited then
      some { w with bracket := .write true, ready := false, ack := .awaited }
    else none
  | .rspRx _ _ => if w.mayReadFrame ∧ w.ack = .settled then some (w.frameRead .over) else none

/-- One act of the host against the duties R240 to R243. `wait_ready` polls in brackets of its own (R243), and where it
fails after CMD_TX the acknowledge did not arrive (R242). A reset of the block clears the latch (R230), so RX_PLD may no
longer follow; it moves no chip-select and nothing of the chip (R231). -/
def Watch.act (w : Watch) (a : HostAct) : Option Watch :=
  match a with
  | .waitReady r =>
    if w.bracket = .closed then some { w with ready := r, ack := if w.ack = .awaited ∧ r = false then .missed else w.ack }
    else none
  | .openWrite => if w.bracket = .closed then some { w with bracket := .write false } else none
  | .openRead => if w.bracket = .closed then some { w with bracket := .read .empty, held := [] } else none
  | .close => if w.bracket = .closed then none else some { w with bracket := .closed }
  | .hold l => some { w with held := l }
  | .reset => some { w with bracket := if w.bracket = .read .header then .read .over else w.bracket }
  | .issue i seen => w.issue i seen

/-- Whether a record of the host's acts keeps the duties R240 to R243 from `w` on. -/
def Watch.dutiful (w : Watch) : List HostAct → Bool
  | [] => true
  | a :: rest =>
    match w.act a with
    | some w' => w'.dutiful rest
    | none => false

end Sys2Proof.Machine
end

