-- ==== Sys2Proof/Safety.lean ====
section
/-! DEFINITION. What counts as a legal state and a safe run, in the terms the statements use. -/

namespace Sys2Proof.Machine

/-- What `FAULT` may hold: an operation code that raises that reason (R205, R84). -/
def FaultReason.raisedBy (reason : FaultReason) (op : Byte) : Prop :=
  match reason with
  | .illegalOp => assigned op = false
  | .operand => op ∈ [0x11#8, 0x12#8, 0x13#8, 0x21#8]
  | .txTooLong => op ∈ [0x10#8, 0x20#8, 0x32#8, 0x36#8]

/-- The legal states: `ST` holds a code of R200 (R30), `BUF` at most 262 bytes (R23), every `RXLOG` entry at most the
bytes asked for and no read asks for more than 257 (R7, R150), `FAULT` a reason with an `OP` that raises it (R205). -/
structure State.Inv (s : State) : Prop where
  st_is_a_code : s.st.toNat ≤ 0x0D
  buf_fits : s.buf.length ≤ 262
  reads_bounded : ∀ e ∈ s.rxLog, e.2.length ≤ e.1 ∧ e.1 ≤ 257
  fault_legal : ∀ reason op, s.fault = some (reason, op) → reason.raisedBy op

/-- The latch holds the LEN of a valid header, and that header is the last thing read from the transport (R24, R241):
so the payload read starts at the byte right after the header. -/
def State.LatchIsLastHeader (s : State) : Prop :=
  ∀ n, s.rxl = some n →
    ∃ earlier wire, s.rxLog = earlier ++ [(5, wire)] ∧ wire.length = 5 ∧ hdrCheck (fromWire wire) = .ok n

/-- The block is stopped by its sticky fault: only a reset leaves such a state (R25, R207, R232). -/
def State.Stuck (s : State) : Prop := s.fault ≠ none

/-- The watch over the host agrees with the block: where the watch lets RX_PLD follow a header, a length is latched. -/
def Watch.Agrees (w : Watch) (s : State) : Prop := w.bracket = .read .header → s.rxl ≠ none

/-- The record of the host's acts is one of a run of the machine from `s`: each `issue` is the next request, which `step`
completed leaving what the record says on the result port, each `reset` is a reset, and the host's other acts do not
change the block's state (95_test_vectors.md section 3). -/
def State.Records (s : State) : List HostAct → Prop
  | [] => True
  | .issue i seen :: acts =>
    ∃ r rest t, s.pending = .request r :: rest ∧ decode r = .ok i ∧ step s = .next t ∧ t.fault = none ∧
      seen = t.resultPort ∧ t.Records acts
  | .reset :: acts => ∃ rest t, s.pending = .reset :: rest ∧ step s = .next t ∧ t.Records acts
  | .waitReady _ :: acts => s.Records acts
  | .openWrite :: acts => s.Records acts
  | .openRead :: acts => s.Records acts
  | .close :: acts => s.Records acts
  | .hold _ :: acts => s.Records acts

end Sys2Proof.Machine
end

