-- ==== Sys2Proof/Certificates/Slice0/Obligations.lean ====
section
/-! DEFINITION. The statements for the provers, from the numbered rules of spec/. A status code, an opcode and a fixed
byte stand here as the spec's numbers, and a result as the spec's formula, so that a statement does not repeat a
definition of the model. In a result statement the next state is written whole: every field not named is as it was. -/

open Sys2Proof Sys2Proof.Machine

/-! ## Reset, the request port and the sticky fault -/

/-- R230: the reset value of every piece of the block's state. -/
def Obligations.ResetLeavesTheTabledValues : Prop :=
  State.reset.st = 0x00 ∧ State.reset.res = 0x00 ∧ State.reset.buf = [] ∧ State.reset.rxl = none ∧
    State.reset.fault = none ∧ State.reset.txLog = [] ∧ State.reset.rxLog = [] ∧ State.reset.pc = 0

/-- R231 with R230: the host's reset puts every register and log of the block at its reset value, and leaves the
transport's side (and the parameters, R28) alone. That the host's waiting moves stay is the model's choice, log entry 2. -/
def Obligations.HostResetTouchesNoTransport : Prop :=
  ∀ (s : State) (rest : List HostMove), s.pending = .reset :: rest →
    step s = .next { s with
      st := 0x00, res := 0x00, buf := [], rxl := none, fault := none, txLog := [], rxLog := [], pc := 0
      pending := rest }

/-- R232: a step that clears `FAULT` is a reset. -/
def Obligations.OnlyResetClearsFault : Prop :=
  ∀ s t : State, step s = .next t → s.fault ≠ none → t.fault = none → ∃ rest, s.pending = .reset :: rest

/-- R25, R209: with `FAULT` set, a request is not examined: the block takes no step. That a block without a step is the
outcome `fault` is the model's choice, log entry 4. -/
def Obligations.FaultedBlockTakesNoRequest : Prop :=
  ∀ (s : State) (reason : FaultReason) (op : Byte) (r : Request) (rest : List HostMove),
    s.fault = some (reason, op) → s.pending = .request r :: rest → step s = .fault (.blockFaulted reason op)

/-- R214: the block is idle between requests and keeps all state while idle. That idling is a step is the model's
choice, log entry 2. -/
def Obligations.IdleBlockKeepsAllState : Prop :=
  ∀ s : State, s.pending = [] → step s = .next s

/-- A step runs the operation the request decodes to; "pc" moves by one when the operation completed and stays when it
faulted (R20, R206). That one step takes the next move, and that the request leaves the port also when the operation faults,
is the model's choice, log entry 2. -/
def Obligations.StepRunsTheDecodedOperation : Prop :=
  ∀ (s : State) (r : Request) (rest : List HostMove) (i : Instr),
    s.fault = none → s.pending = .request r :: rest → decode r = .ok i →
    ∃ t, exec i { s with pending := rest } = .next t ∧
      step s = .next { t with pc := if t.fault = none then t.pc + 1 else t.pc }

/-- R84: the unassigned opcodes are exactly the listed ranges, and a request with one raises `fault(F_ILLEGAL_OP)`. That the
faulting request leaves the port (the clause on `pending`) is the model's choice, log entry 2. -/
def Obligations.UnassignedOpcodeFaults : Prop :=
  ∀ (s : State) (r : Request) (rest : List HostMove),
    s.fault = none → s.pending = .request r :: rest → r.v.length ≤ 262 →
    ((∃ i, decode r = .ok i) ↔
        ¬ (r.op.toNat = 0x00 ∨ (0x04 ≤ r.op.toNat ∧ r.op.toNat ≤ 0x0F) ∨ (0x14 ≤ r.op.toNat ∧ r.op.toNat ≤ 0x1F) ∨
          (0x22 ≤ r.op.toNat ∧ r.op.toNat ≤ 0x2F) ∨ 0x38 ≤ r.op.toNat)) ∧
      ((r.op.toNat = 0x00 ∨ (0x04 ≤ r.op.toNat ∧ r.op.toNat ≤ 0x0F) ∨ (0x14 ≤ r.op.toNat ∧ r.op.toNat ≤ 0x1F) ∨
          (0x22 ≤ r.op.toNat ∧ r.op.toNat ≤ 0x2F) ∨ 0x38 ≤ r.op.toNat) →
        step s = .next { s with pending := rest, fault := some (.illegalOp, r.op) })

/-- R83: what the port cannot carry is no move of the host. That the model answers a refusal is log entry 4. -/
def Obligations.OversizedRequestIsRefused : Prop :=
  ∀ (s : State) (r : Request) (rest : List HostMove),
    s.fault = none → s.pending = .request r :: rest → 262 < r.v.length → step s = .refused (.portOverflow r.v.length)

/-! ## Encoding -/

/-- Decoding the request of a well-formed operation gives the operation back, every operand at every value. -/
def Obligations.DecodeEncodeRoundTrip : Prop :=
  ∀ i : Instr, i.wf = true → decode (encode i) = .ok i

/-- R80: a decoded request is an operation of the format the format table gives its `OP`; each operand field the format
reads is the operation's operand, bit for bit. -/
def Obligations.DecodeReadsTheFormatsOperands : Prop :=
  ∀ (r : Request) (i : Instr), decode r = .ok i →
    i.wf = true ∧ opcode i = r.op ∧ ∃ f, formatOf r.op = some f ∧
      (encode i).a = (if f.readsA = true then r.a else 0) ∧ (encode i).b = (if f.readsB = true then r.b else 0) ∧
      (encode i).v = (if f.readsV = true then r.v else [])

/-- R5, R80: an operand the operation does not read is ignored. -/
def Obligations.UnreadOperandsAreIgnored : Prop :=
  ∀ (r q : Request) (f : Format), r.op = q.op → formatOf r.op = some f →
    (f.readsA = true → r.a = q.a) → (f.readsB = true → r.b = q.b) → (f.readsV = true → r.v = q.v) →
    r.v.length ≤ 262 → q.v.length ≤ 262 → decode r = decode q

/-- Requests written out from the opcode map, one of each family. -/
def Obligations.OpcodeMapSamplesDecode : Prop :=
  decodeTableWord 8 0x01 = some (.brev 0x00) ∧
    decode ⟨0x03, 0x2A, 0x77, [0xD4, 0x02]⟩ = .ok (.csumChk 0x2A [0xD4, 0x02]) ∧
    decode ⟨0x36, 0x4A, 0x00, [0x01, 0x00]⟩ = .ok (.cmdTx 0x4A [0x01, 0x00]) ∧
    decode ⟨0x12, 0x00, 0x00, [0x00, 0x00]⟩ = .ok (.pldParse 0x00 [0x00, 0x00]) ∧
    decodeTableWord 8 0x34 = some .rxPld ∧
    decode ⟨0x21, 0x02, 0x04, [0xD5, 0x03]⟩ = .ok (.rspMatch 0x02 0x04 [0xD5, 0x03]) ∧
    decode ⟨0x37, 0x02, 0x04, []⟩ = .ok (.rspRx 0x02 0x04) ∧
    decodeTableWord 8 0x00 = none ∧ decodeTableWord 8 0x38 = none

/-! ## The bit adapter -/

/-- R101 with R100: BREV. Bit `i` of the result is bit `7 - i` of `A`. -/
def Obligations.BrevReversesTheBits : Prop :=
  ∀ (a : Byte) (s : State),
    (∀ b v, v.length ≤ 262 → decode ⟨0x01, a, b, v⟩ = .ok (.brev a)) ∧
    ∃ r : Byte, exec (.brev a) s = .next { s with st := 0x00, res := r } ∧
      ∀ i, i < 8 → r.getLsbD i = a.getLsbD (7 - i)

/-- R104: the reversal is an involution, hence a bijection; it preserves the number of 1 bits; its fixed points are the
sixteen bit-palindromes. -/
def Obligations.ReversalLaws : Prop :=
  (∀ b : Byte, brev (brev b) = b) ∧ Function.Bijective brev ∧
    (∀ b : Byte, ((List.range 8).filter (brev b).getLsbD).length = ((List.range 8).filter b.getLsbD).length) ∧
    ∀ b : Byte, brev b = b ↔ b ∈ [0x00#8, 0x18#8, 0x24#8, 0x3C#8, 0x42#8, 0x5A#8, 0x66#8, 0x7E#8, 0x81#8, 0x99#8,
      0xA5#8, 0xBD#8, 0xC3#8, 0xDB#8, 0xE7#8, 0xFF#8]

/-- R102: WIRE_TX appends the reversed bytes, in order, and clears the latch. -/
def Obligations.WireTxSendsReversedBytes : Prop :=
  ∀ (v : List Byte) (s : State),
    (∀ a b, v.length ≤ 262 → decode ⟨0x30, a, b, v⟩ = .ok (.wireTx v)) ∧
    exec (.wireTx v) s = .next { s with st := 0x00, rxl := none, txLog := s.txLog ++ v.map brev }

/-- R103: WIRE_RX. With fewer than `n` bytes returned it fails with `E_SHORT_READ`, else it leaves the reversed bytes. -/
def Obligations.WireRxReceivesReversedBytes : Prop :=
  ∀ (a : Byte) (s : State),
    (∀ b v, v.length ≤ 262 → decode ⟨0x31, a, b, v⟩ = .ok (.wireRx a)) ∧
    ((s.rxAnswer a.toNat).length < a.toNat →
      exec (.wireRx a) s = .next { s.rxRead a.toNat with rxl := none, st := 0x0D }) ∧
    ((s.rxAnswer a.toNat).length = a.toNat →
      exec (.wireRx a) s =
        .next { s.rxRead a.toNat with rxl := none, buf := (s.rxAnswer a.toNat).map brev, res := a, st := 0x00 })

/-- R7, R27, R46 as the model holds the oracle (log entry 1): a read returns at most `n` bytes; its call and answer are
appended to `RXLOG`; nothing else of the block changes; an answer that is written out is consumed in order; where none is
written out the answer is a free draw, a new one each time; and every answer the oracle may choose is some transport's. -/
def Obligations.ReadTakesTheOraclesAnswer : Prop :=
  ∀ (n : Nat) (s : State),
    (s.rxAnswer n).length ≤ n ∧
    s.rxRead n = { s with
      rxIn := s.rxLeft n, rxDraws := s.rxDrawsNext, rxLog := s.rxLog ++ [(n, s.rxAnswer n)] } ∧
    (s.rxIn = [] →
      s.rxAnswer n = (Config.rxDraw s.rxDraws).take n ∧ (s.rxRead n).rxIn = [] ∧
        (s.rxRead n).rxDraws = s.rxDraws + 1) ∧
    (∀ wire rest, s.rxIn = wire :: rest →
      s.rxAnswer n = wire.take n ∧
        (s.rxRead n).rxIn = (if wire.length ≤ n then rest else wire.drop n :: rest) ∧
        (s.rxRead n).rxDraws = s.rxDraws) ∧
    ∀ r : List Byte, r.length ≤ n →
      ({ s with rxIn := r :: s.rxIn } : State).rxAnswer n = r ∧
        (({ s with rxIn := r :: s.rxIn } : State).rxRead n).rxIn = s.rxIn

/-! ## The checksum validator -/

/-- R110: CSUM_GEN. -/
def Obligations.CsumGenGivesTheInverseOfTheSum : Prop :=
  ∀ (v : List Byte) (s : State),
    (∀ a b, v.length ≤ 262 → decode ⟨0x02, a, b, v⟩ = .ok (.csumGen v)) ∧
    exec (.csumGen v) s =
      .next { s with st := 0x00, res := BitVec.ofNat 8 ((256 - (v.map BitVec.toNat).sum % 256) % 256) }

/-- R111: CSUM_CHK. -/
def Obligations.CsumChkPassesExactlyOnSumZero : Prop :=
  ∀ (a : Byte) (v : List Byte) (s : State),
    (∀ b, v.length ≤ 262 → decode ⟨0x03, a, b, v⟩ = .ok (.csumChk a v)) ∧
    exec (.csumChk a v) s =
      .next { s with st := if ((v.map BitVec.toNat).sum + a.toNat) % 256 = 0 then 0x00 else 0x06 }

/-- R112, R113: a 17-bit accumulator never overflows on what the port carries; an 8-bit accumulator that wraps after
every addition gives the same sum modulo 256; a byte passes the check exactly when it is the checksum. -/
def Obligations.ChecksumArithmeticIsModular : Prop :=
  ∀ l : List Byte,
    (l.length ≤ 262 → byteSum l ≤ 66810 ∧ byteSum l < 2 ^ 17) ∧
    (l.foldl (fun acc b => acc + b) (0 : Byte)).toNat = byteSum l % 256 ∧
    (byteSum l + (checksum l).toNat) % 256 = 0 ∧
    ∀ c : Byte, (byteSum l + c.toNat) % 256 = 0 ↔ c = checksum l

/-- R114: what the check detects and what it does not. -/
def Obligations.ChecksumDetection : Prop :=
  (∀ (l m : List Byte) (x y c : Byte), x ≠ y → sumsToZero (l ++ x :: m) c = true → sumsToZero (l ++ y :: m) c = false) ∧
  (∀ (l : List Byte) (c d : Byte), c ≠ d → sumsToZero l c = true → sumsToZero l d = false) ∧
  (∀ (l m : List Byte) (c : Byte), l.Perm m → sumsToZero l c = sumsToZero m c) ∧
  (∀ (l m n : List Byte) (x y k c : Byte),
    sumsToZero (l ++ (x + k) :: m ++ (y - k) :: n) c = sumsToZero (l ++ x :: m ++ y :: n) c) ∧
  (∀ (l m : List Byte) (c : Byte), sumsToZero (l ++ 0x00 :: m) c = sumsToZero (l ++ m) c) ∧
  ∀ n : Nat, sumsToZero (List.replicate n 0x00) 0x00 = true

/-! ## Frame assembly -/

/-- R121, R62 (with R60, R61 and the derived R63): the frame of a payload of at most 255 bytes, field by field, the two
checksum equations, and that no other byte satisfies either. The spec marks the DCS clause (R63) as derived. -/
def Obligations.FrameLayout : Prop :=
  ∀ p : List Byte, p.length ≤ 255 →
    ∃ len lcs dcs : Byte,
      frame p = [0x00, 0x00, 0xFF, len, lcs] ++ p ++ [dcs, 0x00] ∧ (frame p).length = p.length + 7 ∧
      len.toNat = p.length ∧ lcs.toNat = (256 - len.toNat) % 256 ∧
      dcs.toNat = (256 - (p.map BitVec.toNat).sum % 256) % 256 ∧
      (∀ x : Byte, (len.toNat + x.toNat) % 256 = 0 ↔ x = lcs) ∧
      ∀ x : Byte, ((p.map BitVec.toNat).sum + x.toNat) % 256 = 0 ↔ x = dcs

/-- R120: FRM_BUILD, and its fault past 255 bytes. -/
def Obligations.FrmBuildAssemblesTheFrame : Prop :=
  ∀ (v : List Byte) (s : State),
    (∀ a b, v.length ≤ 262 → decode ⟨0x10, a, b, v⟩ = .ok (.frmBuild v)) ∧
    (v.length ≤ 255 →
      exec (.frmBuild v) s = .next { s with
        st := 0x00, res := BitVec.ofNat 8 v.length
        buf := [0x00, 0x00, 0xFF, BitVec.ofNat 8 v.length, BitVec.ofNat 8 ((256 - v.length) % 256)] ++ v ++
          [BitVec.ofNat 8 ((256 - (v.map BitVec.toNat).sum % 256) % 256), 0x00] }) ∧
    (255 < v.length → exec (.frmBuild v) s = .next { s with fault := some (.txTooLong, 0x10) })

/-- R122: CMD_BUILD, and its fault past 253 parameters. -/
def Obligations.CmdBuildPrependsDirectionAndCode : Prop :=
  ∀ (a : Byte) (v : List Byte) (s : State),
    (∀ b, v.length ≤ 262 → decode ⟨0x20, a, b, v⟩ = .ok (.cmdBuild a v)) ∧
    (v.length ≤ 253 →
      exec (.cmdBuild a v) s = .next { s with
        st := 0x00, res := BitVec.ofNat 8 (v.length + 2), buf := [s.params.hostToChipDir, a] ++ v }) ∧
    (253 < v.length → exec (.cmdBuild a v) s = .next { s with fault := some (.txTooLong, 0x20) })

/-- R124: TX_FRAME: what FRM_BUILD builds goes out reversed, in one write, and stays logical in `BUF`. -/
def Obligations.TxFrameSendsTheFrame : Prop :=
  ∀ (v : List Byte) (s : State),
    (∀ a b, v.length ≤ 262 → decode ⟨0x32, a, b, v⟩ = .ok (.txFrame v)) ∧
    (v.length ≤ 255 →
      exec (.txFrame v) s = .next { s with
        st := 0x00, res := BitVec.ofNat 8 v.length, buf := frame v, rxl := none
        txLog := s.txLog ++ (frame v).map brev }) ∧
    (255 < v.length → exec (.txFrame v) s = .next { s with fault := some (.txTooLong, 0x32) })

/-- R126: CMD_TX: the frame of the Command Payload goes out. -/
def Obligations.CmdTxSendsTheCommandFrame : Prop :=
  ∀ (a : Byte) (v : List Byte) (s : State),
    (∀ b, v.length ≤ 262 → decode ⟨0x36, a, b, v⟩ = .ok (.cmdTx a v)) ∧
    (v.length ≤ 253 →
      exec (.cmdTx a v) s = .next { s with
        st := 0x00, res := BitVec.ofNat 8 (v.length + 2), buf := frame ([s.params.hostToChipDir, a] ++ v), rxl := none
        txLog := s.txLog ++ (frame ([s.params.hostToChipDir, a] ++ v)).map brev }) ∧
    (253 < v.length → exec (.cmdTx a v) s = .next { s with fault := some (.txTooLong, 0x36) })

/-- R127: the four assembly operations depend on their operands and `HOST_TO_CHIP_DIR` alone, never on the oracle. -/
def Obligations.AssemblyIgnoresTheOracle : Prop :=
  ∀ (i : Instr) (s t : State) (x : List (List Byte)) (d : Nat) (old : List (Nat × List Byte)),
    opcode i ∈ [0x10#8, 0x20#8, 0x32#8, 0x36#8] → exec i s = .next t →
    exec i { s with rxIn := x, rxDraws := d, rxLog := old } = .next { t with rxIn := x, rxDraws := d, rxLog := old }

/-! ## Frame parsing -/

/-- R140 with R141: HDR_PARSE, every 5-byte header and every other length. -/
def Obligations.HdrParseJudgesTheHeader : Prop :=
  ∀ s : State,
    (∀ a b v, v.length ≤ 262 → decode ⟨0x11, a, b, v⟩ = .ok (.hdrParse v)) ∧
    (∀ p q r len lcs : Byte,
      exec (.hdrParse [p, q, r, len, lcs]) s =
        .next (if p ≠ 0x00 ∨ q ≠ 0x00 ∨ r ≠ 0xFF then { s with st := 0x01 }
          else if (len.toNat + lcs.toNat) % 256 ≠ 0 then { s with st := 0x02 }
          else { s with st := 0x00, res := len })) ∧
    ∀ v : List Byte, v.length ≠ 5 → exec (.hdrParse v) s = .next { s with fault := some (.operand, 0x11) }

/-- R142 with R143: PLD_PARSE, every operand of `A + 2` bytes and every other length. -/
def Obligations.PldParseJudgesThePayload : Prop :=
  ∀ (a : Byte) (s : State),
    (∀ b v, v.length ≤ 262 → decode ⟨0x12, a, b, v⟩ = .ok (.pldParse a v)) ∧
    (∀ (p : List Byte) (dcs post : Byte), p.length = a.toNat →
      exec (.pldParse a (p ++ [dcs, post])) s =
        .next (if ((p.map BitVec.toNat).sum + dcs.toNat) % 256 ≠ 0 then { s with st := 0x03 }
          else if post ≠ 0x00 then { s with st := 0x04 }
          else { s with st := 0x00, buf := p, res := a })) ∧
    ∀ v : List Byte, v.length ≠ a.toNat + 2 → exec (.pldParse a v) s = .next { s with fault := some (.operand, 0x12) }

/-- R145 with R146: ACK_MATCH, the exact compare and every other length. -/
def Obligations.AckMatchComparesExactly : Prop :=
  ∀ (v : List Byte) (s : State),
    (∀ a b, v.length ≤ 262 → decode ⟨0x13, a, b, v⟩ = .ok (.ackMatch v)) ∧
    (v.length = 6 →
      exec (.ackMatch v) s =
        .next { s with st := if v = [0x00, 0x00, 0xFF, 0x00, 0xFF, 0x00] then 0x00 else 0x05 }) ∧
    (v.length ≠ 6 → exec (.ackMatch v) s = .next { s with fault := some (.operand, 0x13) })

/-- R153: RX_HDR. The five bytes, or as many as came, are consumed in every case; the latch is set only on success. -/
def Obligations.RxHdrPeeksTheHeader : Prop :=
  ∀ s : State,
    (∀ a b v, v.length ≤ 262 → decode ⟨0x33, a, b, v⟩ = .ok .rxHdr) ∧
    ((s.rxAnswer 5).length < 5 → exec .rxHdr s = .next { s.rxRead 5 with rxl := none, st := 0x0D }) ∧
    ∀ p q r len lcs : Byte, (s.rxAnswer 5).map brev = [p, q, r, len, lcs] →
      exec .rxHdr s =
        .next (if p ≠ 0x00 ∨ q ≠ 0x00 ∨ r ≠ 0xFF then { s.rxRead 5 with rxl := none, st := 0x01 }
          else if (len.toNat + lcs.toNat) % 256 ≠ 0 then { s.rxRead 5 with rxl := none, st := 0x02 }
          else { s.rxRead 5 with rxl := some len, res := len, st := 0x00 })

/-- R154: RX_PLD. Without a latched length it fails and reads nothing; with one it reads `LEN + 2` bytes. -/
def Obligations.RxPldReadsTheLatchedLength : Prop :=
  ∀ s : State,
    (∀ a b v, v.length ≤ 262 → decode ⟨0x34, a, b, v⟩ = .ok .rxPld) ∧
    (s.rxl = none → exec .rxPld s = .next { s with st := 0x0C }) ∧
    ∀ n : Byte, s.rxl = some n →
      ((s.rxAnswer (n.toNat + 2)).length < n.toNat + 2 →
        exec .rxPld s = .next { s.rxRead (n.toNat + 2) with rxl := none, st := 0x0D }) ∧
      ∀ (p : List Byte) (dcs post : Byte), p.length = n.toNat →
        (s.rxAnswer (n.toNat + 2)).map brev = p ++ [dcs, post] →
        exec .rxPld s =
          .next (if ((p.map BitVec.toNat).sum + dcs.toNat) % 256 ≠ 0 then
              { s.rxRead (n.toNat + 2) with rxl := none, st := 0x03 }
            else if post ≠ 0x00 then { s.rxRead (n.toNat + 2) with rxl := none, st := 0x04 }
            else { s.rxRead (n.toNat + 2) with rxl := none, buf := p, res := n, st := 0x00 })

/-- R155: RX_ACK. -/
def Obligations.RxAckComparesExactly : Prop :=
  ∀ s : State,
    (∀ a b v, v.length ≤ 262 → decode ⟨0x35, a, b, v⟩ = .ok .rxAck) ∧
    ((s.rxAnswer 6).length < 6 → exec .rxAck s = .next { s.rxRead 6 with rxl := none, st := 0x0D }) ∧
    ((s.rxAnswer 6).length = 6 →
      exec .rxAck s = .next { s.rxRead 6 with
        rxl := none
        st := if (s.rxAnswer 6).map brev = [0x00, 0x00, 0xFF, 0x00, 0xFF, 0x00] then 0x00 else 0x05 })

/-- R64, R66, R149: the Acknowledge Frame is its own wire form and fails the header check with `E_LCS`; so do the
negative-acknowledge pattern and the extended-length form; the application-error frame passes both checks. -/
def Obligations.OtherFrameKindsAreJudgedAsFrames : Prop :=
  ∀ s : State,
    toWire [0x00, 0x00, 0xFF, 0x00, 0xFF, 0x00] = [0x00, 0x00, 0xFF, 0x00, 0xFF, 0x00] ∧
    exec (.hdrParse [0x00, 0x00, 0xFF, 0x00, 0xFF]) s = .next { s with st := 0x02 } ∧
    exec (.hdrParse [0x00, 0x00, 0xFF, 0xFF, 0x00]) s = .next { s with st := 0x02 } ∧
    exec (.hdrParse [0x00, 0x00, 0xFF, 0xFF, 0xFF]) s = .next { s with st := 0x02 } ∧
    exec (.hdrParse [0x00, 0x00, 0xFF, 0x01, 0xFF]) s = .next { s with st := 0x00, res := 0x01 } ∧
    exec (.pldParse 0x01 [0x7F, 0x81, 0x00]) s = .next { s with st := 0x00, res := 0x01, buf := [0x7F] }

/-! ## The response envelope -/

/-- R170 with R172: RSP_MATCH, its checks in order, and its fault past 255 bytes. -/
def Obligations.RspMatchCorrelatesTheResponse : Prop :=
  ∀ (a b : Byte) (s : State),
    (∀ v, v.length ≤ 262 → decode ⟨0x21, a, b, v⟩ = .ok (.rspMatch a b v)) ∧
    (∀ v : List Byte, v.length < 2 → exec (.rspMatch a b v) s = .next { s with st := 0x07 }) ∧
    (∀ (dir echo : Byte) (body : List Byte), body.length ≤ 253 →
      exec (.rspMatch a b (dir :: echo :: body)) s =
        .next (if dir ≠ 0xD5 then { s with st := 0x08 }
          else if echo.toNat ≠ (a.toNat + 1) % 256 then { s with st := 0x09 }
          else if body = [] ∧ s.params.acceptEmptyBody = false then { s with st := 0x0A }
          else if body.length > b.toNat then { s with st := 0x0B }
          else { s with st := 0x00, buf := body, res := BitVec.ofNat 8 body.length })) ∧
    ∀ v : List Byte, 255 < v.length → exec (.rspMatch a b v) s = .next { s with fault := some (.operand, 0x21) }

/-- R171: RSP_RX. The header is read and judged; LEN below 2 is rejected before any payload byte is read; the payload
is read whole and judged; then the response is correlated. -/
def Obligations.RspRxReceivesOneResponse : Prop :=
  ∀ (a b : Byte) (s : State),
    (∀ v, v.length ≤ 262 → decode ⟨0x37, a, b, v⟩ = .ok (.rspRx a b)) ∧
    ((s.rxAnswer 5).length < 5 → exec (.rspRx a b) s = .next { s.rxRead 5 with rxl := none, st := 0x0D }) ∧
    ∀ p q r len lcs : Byte, (s.rxAnswer 5).map brev = [p, q, r, len, lcs] →
      ((p ≠ 0x00 ∨ q ≠ 0x00 ∨ r ≠ 0xFF) → exec (.rspRx a b) s = .next { s.rxRead 5 with rxl := none, st := 0x01 }) ∧
      (p = 0x00 → q = 0x00 → r = 0xFF →
        ((len.toNat + lcs.toNat) % 256 ≠ 0 →
          exec (.rspRx a b) s = .next { s.rxRead 5 with rxl := none, st := 0x02 }) ∧
        ((len.toNat + lcs.toNat) % 256 = 0 →
          (len.toNat < 2 → exec (.rspRx a b) s = .next { s.rxRead 5 with rxl := none, st := 0x07 }) ∧
          (2 ≤ len.toNat →
            (((s.rxRead 5).rxAnswer (len.toNat + 2)).length < len.toNat + 2 →
              exec (.rspRx a b) s = .next { (s.rxRead 5).rxRead (len.toNat + 2) with rxl := none, st := 0x0D }) ∧
            ∀ (dir echo : Byte) (body : List Byte) (dcs post : Byte), body.length + 2 = len.toNat →
              ((s.rxRead 5).rxAnswer (len.toNat + 2)).map brev = dir :: echo :: (body ++ [dcs, post]) →
              exec (.rspRx a b) s = .next (
                if (dir.toNat + echo.toNat + (body.map BitVec.toNat).sum + dcs.toNat) % 256 ≠ 0 then
                  { (s.rxRead 5).rxRead (len.toNat + 2) with rxl := none, st := 0x03 }
                else if post ≠ 0x00 then { (s.rxRead 5).rxRead (len.toNat + 2) with rxl := none, st := 0x04 }
                else if dir ≠ 0xD5 then { (s.rxRead 5).rxRead (len.toNat + 2) with rxl := none, st := 0x08 }
                else if echo.toNat ≠ (a.toNat + 1) % 256 then
                  { (s.rxRead 5).rxRead (len.toNat + 2) with rxl := none, st := 0x09 }
                else if body = [] ∧ s.params.acceptEmptyBody = false then
                  { (s.rxRead 5).rxRead (len.toNat + 2) with rxl := none, st := 0x0A }
                else if body.length > b.toNat then
                  { (s.rxRead 5).rxRead (len.toNat + 2) with rxl := none, st := 0x0B }
                else { (s.rxRead 5).rxRead (len.toNat + 2) with
                  rxl := none, buf := body, res := BitVec.ofNat 8 body.length, st := 0x00 }))))

/-- R175: after a successful RSP_RX, `RES` is the number of bytes in `BUF`: 1 to 253, or 0 under `ACCEPT_EMPTY_BODY`. -/
def Obligations.SuccessfulResponseCountsItsBody : Prop :=
  ∀ (a b : Byte) (s t : State), exec (.rspRx a b) s = .next t → t.st = 0x00 →
    t.res.toNat = t.buf.length ∧ t.buf.length ≤ 253 ∧ t.buf.length ≤ b.toNat ∧
      (t.res.toNat = 0 → s.params.acceptEmptyBody = true)

/-! ## Round trips and equivalences -/

/-- R125: the round trip, whole, from every state. FRM_BUILD leaves `frame(P)` and TX_FRAME sends it. Pure: HDR_PARSE of its
first 5 bytes and PLD_PARSE of the others recover `P`. On the wire: where the oracle returns its wire form, RX_HDR then
RX_PLD recover `P`. -/
def Obligations.FrameRoundTrip : Prop :=
  ∀ (p : List Byte) (s : State), p.length ≤ 255 →
    (∃ u, exec (.frmBuild p) s = .next u ∧ u.buf = frame p) ∧
    (∃ u, exec (.txFrame p) s = .next u ∧ u.txLog = s.txLog ++ (frame p).map brev) ∧
    exec (.hdrParse ((frame p).take 5)) s = .next { s with st := 0x00, res := BitVec.ofNat 8 p.length } ∧
    exec (.pldParse (BitVec.ofNat 8 p.length) ((frame p).drop 5)) s =
      .next { s with st := 0x00, res := BitVec.ofNat 8 p.length, buf := p } ∧
    (s.rxAnswer 5 = ((frame p).map brev).take 5 →
      (s.rxRead 5).rxAnswer (p.length + 2) = ((frame p).map brev).drop 5 →
      ∃ u w, exec .rxHdr s = .next u ∧ u.st = 0x00 ∧ u.res = BitVec.ofNat 8 p.length ∧
        exec .rxPld u = .next w ∧ w.st = 0x00 ∧ w.buf = p ∧ w.res = BitVec.ofNat 8 p.length)

/-- A response the chip frames with `FRM_BUILD`'s layout, direction 0xD5 and the right echo is accepted by RSP_RX
whatever body within the capacity it carries (an empty one where `ACCEPT_EMPTY_BODY` holds), and its body is recovered
(R60, R69, R171). -/
def Obligations.WellMadeResponseIsAccepted : Prop :=
  ∀ (c m : Byte) (body : List Byte) (s : State), (body = [] → s.params.acceptEmptyBody = true) →
    body.length ≤ 253 → body.length ≤ m.toNat →
    s.rxAnswer 5 = (toWire (frame (0xD5 :: (c + 1) :: body))).take 5 →
    (s.rxRead 5).rxAnswer (body.length + 4) = (toWire (frame (0xD5 :: (c + 1) :: body))).drop 5 →
    ∃ t, exec (.rspRx c m) s = .next t ∧ t.st = 0x00 ∧ t.buf = body ∧ t.res.toNat = body.length

/-- R156 as far as the operation rules bear it out (log entry 7): each stream form gives the `ST` of the pure form on the
bytes WIRE_RX receives, and on success RX_HDR and RX_PLD give its results. `RES` differs where the operation rules say so:
RX_ACK does not write it (R155), so on success it keeps its value where WIRE_RX 6 left 6; a failure after a full read keeps
it where WIRE_RX wrote the count (R204). WIRE_RX's operand names at most 255 bytes, so the payload clause is for LEN up to
253; for 254 and 255 RX_PLD's own statement says what it leaves. -/
def Obligations.StreamFormsEqualPureForms : Prop :=
  (∀ s t : State, exec .rxHdr s = .next t → ∃ u, exec (.wireRx 5) s = .next u ∧ t.rxLog = u.rxLog ∧
    (u.st ≠ 0x00 → t.st = u.st) ∧
    (u.st = 0x00 → ∃ w, exec (.hdrParse u.buf) u = .next w ∧ t.st = w.st ∧ (w.st = 0x00 → t.res = w.res))) ∧
  (∀ s t : State, exec .rxAck s = .next t → ∃ u, exec (.wireRx 6) s = .next u ∧ t.rxLog = u.rxLog ∧
    (u.st ≠ 0x00 → t.st = u.st) ∧
    (u.st = 0x00 → ∃ w, exec (.ackMatch u.buf) u = .next w ∧ t.st = w.st ∧ t.res = s.res ∧ w.res = 0x06)) ∧
  ∀ (s t : State) (n : Byte), s.rxl = some n → n.toNat ≤ 253 → exec .rxPld s = .next t →
    ∃ u, exec (.wireRx (n + 2)) s = .next u ∧ t.rxLog = u.rxLog ∧
      (u.st ≠ 0x00 → t.st = u.st) ∧
      (u.st = 0x00 → ∃ w, exec (.pldParse n u.buf) u = .next w ∧ t.st = w.st ∧
        (w.st = 0x00 → t.res = w.res ∧ t.buf = w.buf))

/-- R173, R174: RSP_RX is RX_HDR, then (LEN at least 2) RX_PLD, then RSP_MATCH, each only after the one before it
succeeded: the same `ST`, the same reads, and on success the same `BUF` and `RES`; on a failure `BUF` and `RES` keep
their values. -/
def Obligations.RspRxDecomposes : Prop :=
  ∀ (c m : Byte) (s t : State), exec (.rspRx c m) s = .next t →
    (t.st ≠ 0x00 → t.buf = s.buf ∧ t.res = s.res) ∧
    ∃ s1, exec .rxHdr s = .next s1 ∧
      (s1.st ≠ 0x00 → t.st = s1.st ∧ t.rxLog = s1.rxLog) ∧
      (s1.st = 0x00 → s1.res.toNat < 2 → t.st = 0x07 ∧ t.rxLog = s1.rxLog) ∧
      (s1.st = 0x00 → 2 ≤ s1.res.toNat →
        ∃ s2, exec .rxPld s1 = .next s2 ∧
          (s2.st ≠ 0x00 → t.st = s2.st ∧ t.rxLog = s2.rxLog) ∧
          (s2.st = 0x00 →
            ∃ s3, exec (.rspMatch c m s2.buf) s2 = .next s3 ∧ t.st = s3.st ∧ t.rxLog = s3.rxLog ∧
              (s3.st = 0x00 → t.buf = s3.buf ∧ t.res = s3.res)))

/-! ## Whole-machine rules -/

/-- The status codes each operation may leave, the "raised by" column of R200, by opcode. -/
def Obligations.StatusCodesAreRaisedWhereTabled : Prop :=
  ∀ (i : Instr) (s t : State), exec i s = .next t → s.fault = none → t.fault = none →
    t.st.toNat ≤ 0x0D ∧
    (t.st = 0x01 ∨ t.st = 0x02 → opcode i ∈ [0x11#8, 0x33#8, 0x37#8]) ∧
    (t.st = 0x03 ∨ t.st = 0x04 → opcode i ∈ [0x12#8, 0x34#8, 0x37#8]) ∧
    (t.st = 0x05 → opcode i ∈ [0x13#8, 0x35#8]) ∧
    (t.st = 0x06 → opcode i = 0x03#8) ∧
    (t.st = 0x07 ∨ t.st = 0x08 ∨ t.st = 0x09 ∨ t.st = 0x0A ∨ t.st = 0x0B → opcode i ∈ [0x21#8, 0x37#8]) ∧
    (t.st = 0x0A → s.params.acceptEmptyBody = false) ∧
    (t.st = 0x0C → opcode i = 0x34#8) ∧
    (t.st = 0x0D → opcode i ∈ [0x31#8, 0x33#8, 0x34#8, 0x35#8, 0x37#8])

/-- R204: a failed operation leaves `RES`, `BUF`, `TXLOG`, `FAULT` and "pc" as they were; a pure one changes `ST` alone,
a stream one leaves `RXL` at `NONE`, and the reads it made stay in `RXLOG`. -/
def Obligations.FailureWritesOnlyStatusAndLatch : Prop :=
  ∀ (i : Instr) (s t : State), exec i s = .next t → s.fault = none → t.fault = none → t.st ≠ 0x00 →
    t.res = s.res ∧ t.buf = s.buf ∧ t.txLog = s.txLog ∧ t.pc = s.pc ∧ s.rxLog <+: t.rxLog ∧
      (isStream i = true → t.rxl = none) ∧ (isStream i = false → t = { s with st := t.st })

/-- R206, R31: a fault of an operation changes `FAULT` alone, holding a reason of R205 and the operation's `OP`. -/
def Obligations.FaultChangesOnlyTheFaultRegister : Prop :=
  ∀ (i : Instr) (s t : State), exec i s = .next t → s.fault = none → t.fault ≠ none →
    ∃ reason, reason.raisedBy (opcode i) ∧ t = { s with fault := some (reason, opcode i) }

/-- R205: an operation faults exactly when its `V` breaks the shape of its row. -/
def Obligations.FaultsExactlyOnBrokenShape : Prop :=
  ∀ (i : Instr) (s t : State), exec i s = .next t → s.fault = none →
    (t.fault = none ↔
      match i with
      | .frmBuild v => v.length ≤ 255
      | .txFrame v => v.length ≤ 255
      | .cmdBuild _ v => v.length ≤ 253
      | .cmdTx _ v => v.length ≤ 253
      | .hdrParse v => v.length = 5
      | .pldParse a v => v.length = a.toNat + 2
      | .ackMatch v => v.length = 6
      | .rspMatch _ _ v => v.length ≤ 255
      | _ => True)

/-- R46: the frame of the pure operations. They touch no transport, latch, parameter, host move or "pc"; only `ST`,
`RES`, `BUF` and, on a broken shape, `FAULT` can change; and issued again they leave the same state. -/
def Obligations.PureOperationsTouchNoTransport : Prop :=
  ∀ (i : Instr) (s t : State), isStream i = false → exec i s = .next t →
    t = { s with st := t.st, res := t.res, buf := t.buf, fault := t.fault } ∧ exec i t = .next t

/-- The frame of the stream operations, by what they do with the transport (R26, R27, R31, R40): a sending one reads
nothing, a receiving one sends nothing and never faults; none touches the parameters, the host's moves or "pc". -/
def Obligations.StreamOperationsFrame : Prop :=
  ∀ (i : Instr) (s t : State), isStream i = true → exec i s = .next t →
    t.params = s.params ∧ t.pending = s.pending ∧ t.pc = s.pc ∧
    (opcode i ∈ [0x30#8, 0x32#8, 0x36#8] → t.rxLog = s.rxLog ∧ t.rxIn = s.rxIn ∧ t.rxDraws = s.rxDraws) ∧
    (opcode i ∈ [0x31#8, 0x33#8, 0x34#8, 0x35#8, 0x37#8] → t.txLog = s.txLog ∧ t.fault = s.fault)

/-- R22, R23, R31: which operations never write `RES`, and which never write `BUF`, whatever their outcome. -/
def Obligations.ResultRegistersWrittenWhereTabled : Prop :=
  ∀ (i : Instr) (s t : State), exec i s = .next t →
    (opcode i ∈ [0x03#8, 0x13#8, 0x30#8, 0x35#8] → t.res = s.res) ∧
    (opcode i ∈ [0x01#8, 0x02#8, 0x03#8, 0x11#8, 0x13#8, 0x30#8, 0x33#8, 0x35#8] → t.buf = s.buf)

/-- R45: one operation makes at most two transport reads, and two only in RSP_RX: 5 bytes, then LEN + 2. -/
def Obligations.AtMostTwoReadsPerOperation : Prop :=
  ∀ (i : Instr) (s t : State), exec i s = .next t →
    ∃ reads, t.rxLog = s.rxLog ++ reads ∧
      (reads.length ≤ 1 ∨ ∃ a b first second n, i = .rspRx a b ∧ reads = [(5, first), (n + 2, second)] ∧
        first.length = 5 ∧ hdrCheck (fromWire first) = .ok (BitVec.ofNat 8 n) ∧ 2 ≤ n ∧ n ≤ 255)

/-- R24: the latch after a completed operation: unchanged by a pure one, LEN after a successful RX_HDR, `NONE` after
every other stream operation whatever its outcome. -/
def Obligations.LatchSetOnlyBySuccessfulHeader : Prop :=
  ∀ (i : Instr) (s t : State), exec i s = .next t → s.fault = none → t.fault = none →
    t.rxl = (if isStream i = false then s.rxl else if i = .rxHdr ∧ t.st = 0x00 then some t.res else none)

/-- R34: the latch is observable only through RX_PLD: every other operation leaves the same state, the latch itself
apart, whatever the latch held. -/
def Obligations.LatchHiddenFromOtherOperations : Prop :=
  ∀ (i : Instr) (s t : State) (l : Option Byte), i ≠ .rxPld → exec i s = .next t →
    ∃ u, exec i { s with rxl := l } = .next u ∧ { u with rxl := none } = { t with rxl := none }

/-- R241: any other stream operation between the header and the payload makes RX_PLD fail with `E_SEQ`, reading nothing;
a pure operation between them does not disturb the latch. -/
def Obligations.StrayAccessBreaksTheSequence : Prop :=
  ∀ (i : Instr) (s t : State), exec i s = .next t → s.fault = none → t.fault = none →
    (isStream i = true → ¬ (i = .rxHdr ∧ t.st = 0x00) → exec .rxPld t = .next { t with st := 0x0C }) ∧
    (isStream i = false → ∀ u, exec .rxPld t = .next u → s.rxl ≠ none → u.st ≠ 0x0C)

/-- R28: no step changes the parameters, and no operation reads them but CMD_BUILD and CMD_TX (the direction byte),
RSP_MATCH and RSP_RX (the empty-body switch). -/
def Obligations.ParametersFixedAndReadWhereNamed : Prop :=
  (∀ s t : State, step s = .next t → t.params = s.params) ∧
  (∀ (i : Instr) (s t : State) (d : Byte), opcode i ∉ [0x20#8, 0x36#8] → exec i s = .next t →
    exec i { s with params := ⟨d, s.params.acceptEmptyBody⟩ } =
      .next { t with params := ⟨d, t.params.acceptEmptyBody⟩ }) ∧
  ∀ (i : Instr) (s t : State) (e : Bool), opcode i ∉ [0x21#8, 0x37#8] → exec i s = .next t →
    exec i { s with params := ⟨s.params.hostToChipDir, e⟩ } = .next { t with params := ⟨t.params.hostToChipDir, e⟩ }

/-- R48: operations complete in issue order: a step that is no reset only appends to `TXLOG` and to `RXLOG`. -/
def Obligations.LogsOnlyGrow : Prop :=
  ∀ s t : State, step s = .next t → (∀ rest, s.pending ≠ .reset :: rest) →
    s.txLog <+: t.txLog ∧ s.rxLog <+: t.rxLog

/-- R20: "pc" advances by one per completed request and by nothing else; reset puts it at 0. -/
def Obligations.PcCountsCompletedRequests : Prop :=
  ∀ s t : State, step s = .next t →
    (s.pending = [] → t.pc = s.pc) ∧ (∀ rest, s.pending = .reset :: rest → t.pc = 0) ∧
    ∀ r rest, s.pending = .request r :: rest → t.pc = (if t.fault = none then s.pc + 1 else s.pc)

/-! ## Invariants -/

/-- The reset state is legal. -/
def Obligations.ResetStateIsLegal : Prop :=
  State.reset.Inv ∧ State.reset.LatchIsLastHeader

/-- Every step keeps a state legal: `ST` a code of R200, `BUF` within 262 bytes, reads bounded, `FAULT` a reason with
an `OP` that raises it. -/
def Obligations.EveryStepKeepsTheStateLegal : Prop :=
  ∀ s t : State, s.Inv → step s = .next t → t.Inv

/-- Every step keeps this: when a length is latched, the last thing read from the transport is the valid header that
declared it, so the payload read starts at the byte right after the header (R24, R241). -/
def Obligations.LatchedLengthIsOfTheLastRead : Prop :=
  ∀ s t : State, s.LatchIsLastHeader → step s = .next t → t.LatchIsLastHeader

/-- A host that keeps the duties R240 to R243 never sees `E_SEQ`: no operation of a run whose record is dutiful, resets of
the block included, leaves that code. One act at a time: the watch agrees with the block at the start, every act it allows
keeps that, and where it lets RX_PLD be issued, RX_PLD does not fail with `E_SEQ`. How the watch reads the duties is the
model's, log entry 6. -/
def Obligations.DutifulHostSeesNoSequenceError : Prop :=
  (∀ (acts : List HostAct) (s : State), Watch.start.dutiful acts = true → s.Records acts →
    ∀ i seen, HostAct.issue i seen ∈ acts → seen.st ≠ 0x0C) ∧
  (∀ s : State, Watch.start.Agrees s) ∧
  (∀ (w w' : Watch) (a : HostAct) (s : State), w.Agrees s → a ≠ .reset → (∀ i seen, a ≠ .issue i seen) →
    w.act a = some w' → w'.Agrees s) ∧
  (∀ (w w' : Watch) (s t : State) (rest : List HostMove), s.pending = .reset :: rest → step s = .next t →
    w.act .reset = some w' → w'.Agrees t) ∧
  ∀ (w w' : Watch) (i : Instr) (s t : State), w.Agrees s → exec i s = .next t →
    w.act (.issue i t.resultPort) = some w' → w'.Agrees t ∧ (i = .rxPld → t.st ≠ 0x0C)
end

