-- ==== Sys2Proof/Laws/Codec.lean ====
section
/-! SUPPORT. The small facts about the codec's functions: reversal, sums and checksums, slices, the frame, the checks. -/

namespace Sys2Proof.Machine

/-- Reversing twice gives the byte back. -/
@[simp] theorem brev_brev : ∀ b : Byte, brev (brev b) = b := by decide

@[simp] theorem fromWire_toWire (l : List Byte) : fromWire (toWire l) = l := by
  simp [fromWire, toWire, Function.comp_def]

@[simp] theorem toWire_length (l : List Byte) : (toWire l).length = l.length := by simp [toWire]

@[simp] theorem fromWire_length (l : List Byte) : (fromWire l).length = l.length := by simp [fromWire]

@[simp] theorem byteSum_nil : byteSum [] = 0 := rfl

@[simp] theorem byteSum_cons (b : Byte) (l : List Byte) : byteSum (b :: l) = b.toNat + byteSum l := rfl

@[simp] theorem byteSum_append (l m : List Byte) : byteSum (l ++ m) = byteSum l + byteSum m := by
  induction l with
  | nil => simp
  | cons b l ih => simp [ih]; omega

/-- The checksum byte as a number. -/
theorem checksum_toNat (l : List Byte) : (checksum l).toNat = (256 - byteSum l % 256) % 256 := by
  simp only [checksum, BitVec.toNat_ofNat]; omega

/-- The modular-sum check passes for exactly one byte, the checksum (R113). -/
theorem sumsToZero_iff (l : List Byte) (c : Byte) : sumsToZero l c = true ↔ c = checksum l := by
  simp only [sumsToZero, beq_iff_eq, ← BitVec.toNat_inj, checksum_toNat]
  have := c.isLt
  omega

@[simp] theorem sumsToZero_checksum (l : List Byte) : sumsToZero l (checksum l) = true := by simp [sumsToZero_iff]

/-- The first `n` of a list that begins with `n` bytes `p`. -/
@[simp] theorem slice_append (p q : List Byte) : slice (p ++ q) 0 p.length = p := by simp [slice]

theorem byteAt_append (p q : List Byte) (i : Nat) : byteAt (p ++ q) (p.length + i) = byteAt q i := by
  simp [byteAt, List.getD_eq_getElem?_getD, List.getElem?_append_right]

@[simp] theorem byteAt_append_length (p q : List Byte) : byteAt (p ++ q) p.length = byteAt q 0 :=
  byteAt_append p q 0

@[simp] theorem byteAt_cons_zero (b : Byte) (l : List Byte) : byteAt (b :: l) 0 = b := rfl

@[simp] theorem byteAt_cons_succ (b : Byte) (l : List Byte) (i : Nat) : byteAt (b :: l) (i + 1) = byteAt l i := rfl

@[simp] theorem lenByte_toNat (l : List Byte) (h : l.length ≤ 255) : (lenByte l).toNat = l.length := by
  simp only [lenByte, BitVec.toNat_ofNat]; omega

@[simp] theorem frame_length (p : List Byte) : (frame p).length = p.length + 7 := by simp [frame]

/-- The header check on a list written out. -/
theorem hdrCheck_eq (p q r len lcs : Byte) :
    hdrCheck [p, q, r, len, lcs] =
      if p ≠ 0x00 ∨ q ≠ 0x00 ∨ r ≠ 0xFF then .error .eStart
      else if (len.toNat + lcs.toNat) % 256 = 0 then .ok len
      else .error .eLcs := by
  simp [hdrCheck, sumsToZero, Config.preamble, Config.start1, Config.start2]

/-- The payload check on a list written as payload, DCS, postamble. -/
theorem pldCheck_eq (p : List Byte) (d q : Byte) :
    pldCheck p.length (p ++ [d, q]) =
      if (byteSum p + d.toNat) % 256 = 0 then
        if q = 0x00 then .ok p else .error .ePost
      else .error .eDcs := by
  simp [pldCheck, sumsToZero, Config.postamble, byteAt_append]

/-- A list of `n + 2` bytes is its first `n` bytes and the two after them. -/
theorem exists_tail_two (n : Nat) (t : List Byte) (h : t.length = n + 2) :
    ∃ p d q, t = p ++ [d, q] ∧ p.length = n := by
  refine ⟨t.take n, t[n], t[n + 1], ?_, by simp; omega⟩
  conv_lhs => rw [← List.take_append_drop n t]
  congr 1
  rw [List.drop_eq_getElem_cons (by omega), List.drop_eq_getElem_cons (by omega), List.drop_of_length_le (by omega)]

/-- The response check on a payload of at least two bytes, written out. -/
theorem rspCheck_eq (cfg : Params) (dir echo : Byte) (body : List Byte) (c : Byte) (m : Nat) :
    rspCheck cfg (dir :: echo :: body) c m =
      if dir ≠ 0xD5 then .error .eDir
      else if echo.toNat ≠ (c.toNat + 1) % 256 then .error .eCmd
      else if body = [] ∧ cfg.acceptEmptyBody = false then .error .eBodyEmpty
      else if body.length > m then .error .eBodyOvf
      else .ok body := by
  have he : (echo = expectedEcho c) = (echo.toNat = (c.toNat + 1) % 256) := by
    simp [expectedEcho, ← BitVec.toNat_inj]
  simp [rspCheck, Config.minRspLen, Config.chipToHostDir, slice, he]

end Sys2Proof.Machine
end

