-- ==== Sys2Proof/Laws/Decode.lean ====
section
/-! SUPPORT. What the decoder can answer, said once. -/

namespace Sys2Proof

theorem vFits_iff (v : List Byte) : vFits v = true ↔ v.length ≤ 262 :=
  decide_eq_true_iff

/-- The decoder answers an operation exactly when the port carries the request and `OP` has a row. -/
theorem decode_ok_iff (r : Request) (i : Instr) :
    decode r = .ok i ↔ r.v.length ≤ 262 ∧ decodeOp r = some i := by
  unfold decode
  by_cases h : vFits r.v = true
  · have h' := (vFits_iff _).mp h
    cases hd : decodeOp r <;> simp [h, h']
  · have h' : ¬ r.v.length ≤ 262 := fun c => h ((vFits_iff _).mpr c)
    simp [h, h']

/-- The only rejections: an unassigned `OP`, named, and what the port cannot carry. -/
theorem decode_error_cases (r : Request) (e : Reject) (h : decode r = .error e) :
    (e = .illegalOp r.op ∧ decodeOp r = none) ∨ (e = .portOverflow r.v.length ∧ 262 < r.v.length) := by
  unfold decode at h
  by_cases hv : vFits r.v = true
  · cases hd : decodeOp r with
    | some i => simp [hv, hd] at h
    | none => simp [hv, hd] at h; left; exact ⟨h.symm, rfl⟩
  · have h' : ¬ r.v.length ≤ 262 := fun c => hv ((vFits_iff _).mpr c)
    simp [hv] at h; right; exact ⟨h.symm, by omega⟩

/-- An operation is decoded from its own opcode. -/
theorem decodeOp_opcode (r : Request) (i : Instr) (h : decodeOp r = some i) : opcode i = r.op := by
  unfold decodeOp at h
  split at h <;> simp_all <;> subst h <;> simp [opcode, *]

end Sys2Proof
end

