-- ==== Sys2Proof/Laws/State.lean ====
section
/-! SUPPORT. What each field reads after each named update of the state: one lemma per field per update, true by rfl. -/

namespace Sys2Proof.Machine

@[simp] theorem State.setRes_st (v : Byte) (s : State) : (s.setRes v).st = s.st := rfl
@[simp] theorem State.setRes_res (v : Byte) (s : State) : (s.setRes v).res = v := rfl
@[simp] theorem State.setRes_buf (v : Byte) (s : State) : (s.setRes v).buf = s.buf := rfl
@[simp] theorem State.setRes_rxl (v : Byte) (s : State) : (s.setRes v).rxl = s.rxl := rfl
@[simp] theorem State.setRes_fault (v : Byte) (s : State) : (s.setRes v).fault = s.fault := rfl
@[simp] theorem State.setRes_txLog (v : Byte) (s : State) : (s.setRes v).txLog = s.txLog := rfl
@[simp] theorem State.setRes_rxLog (v : Byte) (s : State) : (s.setRes v).rxLog = s.rxLog := rfl
@[simp] theorem State.setRes_pc (v : Byte) (s : State) : (s.setRes v).pc = s.pc := rfl
@[simp] theorem State.setRes_params (v : Byte) (s : State) : (s.setRes v).params = s.params := rfl
@[simp] theorem State.setRes_pending (v : Byte) (s : State) : (s.setRes v).pending = s.pending := rfl
@[simp] theorem State.setRes_rxIn (v : Byte) (s : State) : (s.setRes v).rxIn = s.rxIn := rfl
@[simp] theorem State.setRes_rxDraws (v : Byte) (s : State) : (s.setRes v).rxDraws = s.rxDraws := rfl

@[simp] theorem State.setBuf_st (l : List Byte) (s : State) : (s.setBuf l).st = s.st := rfl
@[simp] theorem State.setBuf_res (l : List Byte) (s : State) : (s.setBuf l).res = s.res := rfl
@[simp] theorem State.setBuf_buf (l : List Byte) (s : State) : (s.setBuf l).buf = l := rfl
@[simp] theorem State.setBuf_rxl (l : List Byte) (s : State) : (s.setBuf l).rxl = s.rxl := rfl
@[simp] theorem State.setBuf_fault (l : List Byte) (s : State) : (s.setBuf l).fault = s.fault := rfl
@[simp] theorem State.setBuf_txLog (l : List Byte) (s : State) : (s.setBuf l).txLog = s.txLog := rfl
@[simp] theorem State.setBuf_rxLog (l : List Byte) (s : State) : (s.setBuf l).rxLog = s.rxLog := rfl
@[simp] theorem State.setBuf_pc (l : List Byte) (s : State) : (s.setBuf l).pc = s.pc := rfl
@[simp] theorem State.setBuf_params (l : List Byte) (s : State) : (s.setBuf l).params = s.params := rfl
@[simp] theorem State.setBuf_pending (l : List Byte) (s : State) : (s.setBuf l).pending = s.pending := rfl
@[simp] theorem State.setBuf_rxIn (l : List Byte) (s : State) : (s.setBuf l).rxIn = s.rxIn := rfl
@[simp] theorem State.setBuf_rxDraws (l : List Byte) (s : State) : (s.setBuf l).rxDraws = s.rxDraws := rfl

@[simp] theorem State.latch_st (n : Byte) (s : State) : (s.latch n).st = s.st := rfl
@[simp] theorem State.latch_res (n : Byte) (s : State) : (s.latch n).res = s.res := rfl
@[simp] theorem State.latch_buf (n : Byte) (s : State) : (s.latch n).buf = s.buf := rfl
@[simp] theorem State.latch_rxl (n : Byte) (s : State) : (s.latch n).rxl = some n := rfl
@[simp] theorem State.latch_fault (n : Byte) (s : State) : (s.latch n).fault = s.fault := rfl
@[simp] theorem State.latch_txLog (n : Byte) (s : State) : (s.latch n).txLog = s.txLog := rfl
@[simp] theorem State.latch_rxLog (n : Byte) (s : State) : (s.latch n).rxLog = s.rxLog := rfl
@[simp] theorem State.latch_pc (n : Byte) (s : State) : (s.latch n).pc = s.pc := rfl
@[simp] theorem State.latch_params (n : Byte) (s : State) : (s.latch n).params = s.params := rfl
@[simp] theorem State.latch_pending (n : Byte) (s : State) : (s.latch n).pending = s.pending := rfl
@[simp] theorem State.latch_rxIn (n : Byte) (s : State) : (s.latch n).rxIn = s.rxIn := rfl
@[simp] theorem State.latch_rxDraws (n : Byte) (s : State) : (s.latch n).rxDraws = s.rxDraws := rfl

@[simp] theorem State.clearLatch_st (s : State) : (s.clearLatch).st = s.st := rfl
@[simp] theorem State.clearLatch_res (s : State) : (s.clearLatch).res = s.res := rfl
@[simp] theorem State.clearLatch_buf (s : State) : (s.clearLatch).buf = s.buf := rfl
@[simp] theorem State.clearLatch_rxl (s : State) : (s.clearLatch).rxl = none := rfl
@[simp] theorem State.clearLatch_fault (s : State) : (s.clearLatch).fault = s.fault := rfl
@[simp] theorem State.clearLatch_txLog (s : State) : (s.clearLatch).txLog = s.txLog := rfl
@[simp] theorem State.clearLatch_rxLog (s : State) : (s.clearLatch).rxLog = s.rxLog := rfl
@[simp] theorem State.clearLatch_pc (s : State) : (s.clearLatch).pc = s.pc := rfl
@[simp] theorem State.clearLatch_params (s : State) : (s.clearLatch).params = s.params := rfl
@[simp] theorem State.clearLatch_pending (s : State) : (s.clearLatch).pending = s.pending := rfl
@[simp] theorem State.clearLatch_rxIn (s : State) : (s.clearLatch).rxIn = s.rxIn := rfl
@[simp] theorem State.clearLatch_rxDraws (s : State) : (s.clearLatch).rxDraws = s.rxDraws := rfl

@[simp] theorem State.ok_st (s : State) : (s.ok).st = Status.code .ok := rfl
@[simp] theorem State.ok_res (s : State) : (s.ok).res = s.res := rfl
@[simp] theorem State.ok_buf (s : State) : (s.ok).buf = s.buf := rfl
@[simp] theorem State.ok_rxl (s : State) : (s.ok).rxl = s.rxl := rfl
@[simp] theorem State.ok_fault (s : State) : (s.ok).fault = s.fault := rfl
@[simp] theorem State.ok_txLog (s : State) : (s.ok).txLog = s.txLog := rfl
@[simp] theorem State.ok_rxLog (s : State) : (s.ok).rxLog = s.rxLog := rfl
@[simp] theorem State.ok_pc (s : State) : (s.ok).pc = s.pc := rfl
@[simp] theorem State.ok_params (s : State) : (s.ok).params = s.params := rfl
@[simp] theorem State.ok_pending (s : State) : (s.ok).pending = s.pending := rfl
@[simp] theorem State.ok_rxIn (s : State) : (s.ok).rxIn = s.rxIn := rfl
@[simp] theorem State.ok_rxDraws (s : State) : (s.ok).rxDraws = s.rxDraws := rfl

@[simp] theorem State.fail_st (c : Status) (s : State) : (s.fail c).st = c.code := rfl
@[simp] theorem State.fail_res (c : Status) (s : State) : (s.fail c).res = s.res := rfl
@[simp] theorem State.fail_buf (c : Status) (s : State) : (s.fail c).buf = s.buf := rfl
@[simp] theorem State.fail_rxl (c : Status) (s : State) : (s.fail c).rxl = s.rxl := rfl
@[simp] theorem State.fail_fault (c : Status) (s : State) : (s.fail c).fault = s.fault := rfl
@[simp] theorem State.fail_txLog (c : Status) (s : State) : (s.fail c).txLog = s.txLog := rfl
@[simp] theorem State.fail_rxLog (c : Status) (s : State) : (s.fail c).rxLog = s.rxLog := rfl
@[simp] theorem State.fail_pc (c : Status) (s : State) : (s.fail c).pc = s.pc := rfl
@[simp] theorem State.fail_params (c : Status) (s : State) : (s.fail c).params = s.params := rfl
@[simp] theorem State.fail_pending (c : Status) (s : State) : (s.fail c).pending = s.pending := rfl
@[simp] theorem State.fail_rxIn (c : Status) (s : State) : (s.fail c).rxIn = s.rxIn := rfl
@[simp] theorem State.fail_rxDraws (c : Status) (s : State) : (s.fail c).rxDraws = s.rxDraws := rfl

@[simp] theorem State.raiseFault_st (r : FaultReason) (op : Byte) (s : State) : (s.raiseFault r op).st = s.st := rfl
@[simp] theorem State.raiseFault_res (r : FaultReason) (op : Byte) (s : State) : (s.raiseFault r op).res = s.res := rfl
@[simp] theorem State.raiseFault_buf (r : FaultReason) (op : Byte) (s : State) : (s.raiseFault r op).buf = s.buf := rfl
@[simp] theorem State.raiseFault_rxl (r : FaultReason) (op : Byte) (s : State) : (s.raiseFault r op).rxl = s.rxl := rfl
@[simp] theorem State.raiseFault_fault (r : FaultReason) (op : Byte) (s : State) : (s.raiseFault r op).fault = some (r, op) := rfl
@[simp] theorem State.raiseFault_txLog (r : FaultReason) (op : Byte) (s : State) : (s.raiseFault r op).txLog = s.txLog := rfl
@[simp] theorem State.raiseFault_rxLog (r : FaultReason) (op : Byte) (s : State) : (s.raiseFault r op).rxLog = s.rxLog := rfl
@[simp] theorem State.raiseFault_pc (r : FaultReason) (op : Byte) (s : State) : (s.raiseFault r op).pc = s.pc := rfl
@[simp] theorem State.raiseFault_params (r : FaultReason) (op : Byte) (s : State) : (s.raiseFault r op).params = s.params := rfl
@[simp] theorem State.raiseFault_pending (r : FaultReason) (op : Byte) (s : State) : (s.raiseFault r op).pending = s.pending := rfl
@[simp] theorem State.raiseFault_rxIn (r : FaultReason) (op : Byte) (s : State) : (s.raiseFault r op).rxIn = s.rxIn := rfl
@[simp] theorem State.raiseFault_rxDraws (r : FaultReason) (op : Byte) (s : State) : (s.raiseFault r op).rxDraws = s.rxDraws := rfl

@[simp] theorem State.txWrite_st (w : List Byte) (s : State) : (s.txWrite w).st = s.st := rfl
@[simp] theorem State.txWrite_res (w : List Byte) (s : State) : (s.txWrite w).res = s.res := rfl
@[simp] theorem State.txWrite_buf (w : List Byte) (s : State) : (s.txWrite w).buf = s.buf := rfl
@[simp] theorem State.txWrite_rxl (w : List Byte) (s : State) : (s.txWrite w).rxl = s.rxl := rfl
@[simp] theorem State.txWrite_fault (w : List Byte) (s : State) : (s.txWrite w).fault = s.fault := rfl
@[simp] theorem State.txWrite_txLog (w : List Byte) (s : State) : (s.txWrite w).txLog = s.txLog ++ w := rfl
@[simp] theorem State.txWrite_rxLog (w : List Byte) (s : State) : (s.txWrite w).rxLog = s.rxLog := rfl
@[simp] theorem State.txWrite_pc (w : List Byte) (s : State) : (s.txWrite w).pc = s.pc := rfl
@[simp] theorem State.txWrite_params (w : List Byte) (s : State) : (s.txWrite w).params = s.params := rfl
@[simp] theorem State.txWrite_pending (w : List Byte) (s : State) : (s.txWrite w).pending = s.pending := rfl
@[simp] theorem State.txWrite_rxIn (w : List Byte) (s : State) : (s.txWrite w).rxIn = s.rxIn := rfl
@[simp] theorem State.txWrite_rxDraws (w : List Byte) (s : State) : (s.txWrite w).rxDraws = s.rxDraws := rfl

@[simp] theorem State.rxRead_st (n : Nat) (s : State) : (s.rxRead n).st = s.st := rfl
@[simp] theorem State.rxRead_res (n : Nat) (s : State) : (s.rxRead n).res = s.res := rfl
@[simp] theorem State.rxRead_buf (n : Nat) (s : State) : (s.rxRead n).buf = s.buf := rfl
@[simp] theorem State.rxRead_rxl (n : Nat) (s : State) : (s.rxRead n).rxl = s.rxl := rfl
@[simp] theorem State.rxRead_fault (n : Nat) (s : State) : (s.rxRead n).fault = s.fault := rfl
@[simp] theorem State.rxRead_txLog (n : Nat) (s : State) : (s.rxRead n).txLog = s.txLog := rfl
@[simp] theorem State.rxRead_rxLog (n : Nat) (s : State) : (s.rxRead n).rxLog = s.rxLog ++ [(n, s.rxAnswer n)] := rfl
@[simp] theorem State.rxRead_pc (n : Nat) (s : State) : (s.rxRead n).pc = s.pc := rfl
@[simp] theorem State.rxRead_params (n : Nat) (s : State) : (s.rxRead n).params = s.params := rfl
@[simp] theorem State.rxRead_pending (n : Nat) (s : State) : (s.rxRead n).pending = s.pending := rfl
@[simp] theorem State.rxRead_rxIn (n : Nat) (s : State) : (s.rxRead n).rxIn = s.rxLeft n := rfl
@[simp] theorem State.rxRead_rxDraws (n : Nat) (s : State) : (s.rxRead n).rxDraws = s.rxDrawsNext := rfl

@[simp] theorem State.hostReset_st (rest : List HostMove) (s : State) : (s.hostReset rest).st = 0x00 := rfl
@[simp] theorem State.hostReset_res (rest : List HostMove) (s : State) : (s.hostReset rest).res = 0x00 := rfl
@[simp] theorem State.hostReset_buf (rest : List HostMove) (s : State) : (s.hostReset rest).buf = [] := rfl
@[simp] theorem State.hostReset_rxl (rest : List HostMove) (s : State) : (s.hostReset rest).rxl = none := rfl
@[simp] theorem State.hostReset_fault (rest : List HostMove) (s : State) : (s.hostReset rest).fault = none := rfl
@[simp] theorem State.hostReset_txLog (rest : List HostMove) (s : State) : (s.hostReset rest).txLog = [] := rfl
@[simp] theorem State.hostReset_rxLog (rest : List HostMove) (s : State) : (s.hostReset rest).rxLog = [] := rfl
@[simp] theorem State.hostReset_pc (rest : List HostMove) (s : State) : (s.hostReset rest).pc = 0 := rfl
@[simp] theorem State.hostReset_params (rest : List HostMove) (s : State) : (s.hostReset rest).params = s.params := rfl
@[simp] theorem State.hostReset_pending (rest : List HostMove) (s : State) : (s.hostReset rest).pending = rest := rfl
@[simp] theorem State.hostReset_rxIn (rest : List HostMove) (s : State) : (s.hostReset rest).rxIn = s.rxIn := rfl
@[simp] theorem State.hostReset_rxDraws (rest : List HostMove) (s : State) : (s.hostReset rest).rxDraws = s.rxDraws := rfl

/-- A read's answer depends on nothing but the transport's side of the state. -/
theorem State.rxAnswer_congr {s t : State} (h1 : s.rxIn = t.rxIn) (h2 : s.rxDraws = t.rxDraws) (n : Nat) :
    s.rxAnswer n = t.rxAnswer n := by
  simp only [State.rxAnswer, h1, h2]

@[simp] theorem State.clearLatch_rxAnswer (n : Nat) (s : State) : s.clearLatch.rxAnswer n = s.rxAnswer n := rfl
@[simp] theorem State.clearLatch_rxLeft (n : Nat) (s : State) : s.clearLatch.rxLeft n = s.rxLeft n := rfl
@[simp] theorem State.clearLatch_rxDrawsNext (s : State) : s.clearLatch.rxDrawsNext = s.rxDrawsNext := rfl

end Sys2Proof.Machine
end

