-- ==== Sys2Proof/Laws/Ops.lean ====
section
/-! SUPPORT. For each shared operation, everything it can do, said once. -/

namespace Sys2Proof.Machine

/-- A read returns at most the bytes asked for. -/
theorem State.rxAnswer_length_le (n : Nat) (s : State) : (s.rxAnswer n).length ≤ n := by
  unfold State.rxAnswer; split <;> simp

/-- The receive path either comes up short, with the read done, or goes on with all the bytes. -/
theorem State.receiving_cases (n : Nat) (s : State) (k : List Byte → State → State) :
    ((s.rxAnswer n).length < n ∧ s.receiving n k = (s.rxRead n).fail .eShortRead) ∨
      ((s.rxAnswer n).length = n ∧ s.receiving n k = k (fromWire (s.rxAnswer n)) (s.rxRead n)) := by
  have := s.rxAnswer_length_le n
  unfold State.receiving
  split
  · left; exact ⟨‹_›, rfl⟩
  · right; exact ⟨by omega, rfl⟩

/-- A check either fails the operation with its code or lets it go on with what it returned. -/
theorem State.judge_cases {α : Type} (s : State) (r : Except Status α) (k : α → State) :
    (∃ c, r = .error c ∧ s.judge r k = s.fail c) ∨ (∃ x, r = .ok x ∧ s.judge r k = k x) := by
  cases r with
  | error c => left; exact ⟨c, rfl, rfl⟩
  | ok x => right; exact ⟨x, rfl, rfl⟩

/-- The shape guard either faults, changing `FAULT` alone, or runs the operation. -/
theorem State.shaped_cases (s : State) (i : Instr) (body : State) :
    (∃ reason, shapeFault i = some reason ∧ s.shaped i body = s.raiseFault reason (opcode i)) ∨
      (shapeFault i = none ∧ s.shaped i body = body) := by
  unfold State.shaped
  cases h : shapeFault i with
  | none => right; exact ⟨rfl, rfl⟩
  | some reason => left; exact ⟨reason, rfl, rfl⟩

/-- Everything a look at the host's next move can come to. -/
theorem State.fetch_cases (s : State) :
    (s.pending = [] ∧ s.fetch = .settled s) ∨
    (∃ rest, s.pending = .reset :: rest ∧ s.fetch = .settled (s.hostReset rest)) ∨
    (∃ r rest reason op, s.pending = .request r :: rest ∧ s.fault = some (reason, op) ∧
      s.fetch = .stuck (.blockFaulted reason op)) ∨
    (∃ r rest i, s.pending = .request r :: rest ∧ s.fault = none ∧ decode r = .ok i ∧
      s.fetch = .run i { s with pending := rest }) ∨
    (∃ r rest op, s.pending = .request r :: rest ∧ s.fault = none ∧ decode r = .error (.illegalOp op) ∧
      s.fetch = .settled (State.raiseFault .illegalOp op { s with pending := rest })) ∨
    (∃ r rest n, s.pending = .request r :: rest ∧ s.fault = none ∧ decode r = .error (.portOverflow n) ∧
      s.fetch = .refuse (.portOverflow n)) := by
  unfold State.fetch
  rcases hp : s.pending with _ | ⟨_ | _, rest⟩
  · simp
  · rename_i r
    rcases hf : s.fault with _ | ⟨reason, op⟩
    · rcases hd : decode r with (op | n) | i
      · simp [hd]
      · simp [hd]
      · simp [hd]
    · simp
  · simp

@[simp] theorem State.complete_of_none {s : State} (h : s.fault = none) : s.complete = { s with pc := s.pc + 1 } := by
  simp [State.complete, h]

@[simp] theorem State.complete_of_some {s : State} {x : FaultReason × Byte} (h : s.fault = some x) : s.complete = s := by
  simp [State.complete, h]

end Sys2Proof.Machine
end

