-- ==== Sys2Proof/Laws/Exec.lean ====
section
/-! SUPPORT. Everything an operation can do, said once: what each check can answer, and for each operation the states it
can end in. Later proofs cite these and do not unfold the meanings again. -/

namespace Sys2Proof.Machine

/-- What the header check can answer. -/
theorem hdrCheck_cases (h : List Byte) :
    hdrCheck h = .error .eStart ∨ hdrCheck h = .error .eLcs ∨ hdrCheck h = .ok (byteAt h 3) := by
  unfold hdrCheck; split
  · simp
  · split <;> simp

/-- What the payload check can answer. -/
theorem pldCheck_cases (n : Nat) (t : List Byte) :
    pldCheck n t = .error .eDcs ∨ pldCheck n t = .error .ePost ∨ pldCheck n t = .ok (slice t 0 n) := by
  unfold pldCheck; split
  · split <;> simp
  · simp

/-- What the acknowledge check can answer. -/
theorem ackCheck_cases (a : List Byte) : ackCheck a = .error .eAck ∨ ackCheck a = .ok () := by
  unfold ackCheck; split <;> simp

/-- What the response check can answer. -/
theorem rspCheck_cases (cfg : Params) (p : List Byte) (c : Byte) (m : Nat) :
    rspCheck cfg p c m = .error .eShortLen ∨ rspCheck cfg p c m = .error .eDir ∨ rspCheck cfg p c m = .error .eCmd ∨
    (rspCheck cfg p c m = .error .eBodyEmpty ∧ cfg.acceptEmptyBody = false) ∨ rspCheck cfg p c m = .error .eBodyOvf ∨
    (rspCheck cfg p c m = .ok (slice p 2 p.length) ∧ (slice p 2 p.length).length ≤ m ∧
      ((slice p 2 p.length).length = 0 → cfg.acceptEmptyBody = true)) := by
  unfold rspCheck
  split
  · simp
  split
  · simp
  split
  · simp
  split
  · rename_i h; simp [h.2]
  split
  · simp
  · rename_i h1 h2
    refine .inr (.inr (.inr (.inr (.inr ⟨rfl, by omega, fun h => ?_⟩))))
    by_contra hc
    exact h1 ⟨h, by simpa using hc⟩

/-- The states RX_HDR can end in (R153). -/
theorem execRxHdr_cases (s : State) :
    ∃ t, exec .rxHdr s = .next t ∧
      (((s.rxAnswer 5).length < 5 ∧ t = (s.rxRead 5).clearLatch.fail .eShortRead) ∨
       ((s.rxAnswer 5).length = 5 ∧
        ((∃ c, (c = .eStart ∨ c = .eLcs) ∧ hdrCheck (fromWire (s.rxAnswer 5)) = .error c ∧
            t = (s.rxRead 5).clearLatch.fail c) ∨
         (∃ n, hdrCheck (fromWire (s.rxAnswer 5)) = .ok n ∧ t = (((s.rxRead 5).latch n).setRes n).ok)))) := by
  refine ⟨_, rfl, ?_⟩
  rcases s.clearLatch.receiving_cases 5 (fun h s1 => s1.judge (hdrCheck h) fun len => ((s1.latch len).setRes len).ok)
    with ⟨hl, he⟩ | ⟨hl, he⟩
  · left; exact ⟨hl, he⟩
  · right
    refine ⟨hl, ?_⟩
    rcases hdrCheck_cases (fromWire (s.rxAnswer 5)) with h | h | h
    · left; exact ⟨.eStart, .inl rfl, h, he.trans (by simp [h, State.judge]; rfl)⟩
    · left; exact ⟨.eLcs, .inr rfl, h, he.trans (by simp [h, State.judge]; rfl)⟩
    · right; exact ⟨_, h, he.trans (by simp [h, State.judge]; rfl)⟩

/-- The states RX_PLD can end in (R154). -/
theorem execRxPld_cases (s : State) :
    ∃ t, exec .rxPld s = .next t ∧
      ((s.rxl = none ∧ t = s.fail .eSeq) ∨
       ∃ n, s.rxl = some n ∧
        (((s.rxAnswer (n.toNat + 2)).length < n.toNat + 2 ∧
            t = (s.rxRead (n.toNat + 2)).clearLatch.fail .eShortRead) ∨
         ((s.rxAnswer (n.toNat + 2)).length = n.toNat + 2 ∧
          ((∃ c, (c = .eDcs ∨ c = .ePost) ∧ pldCheck n.toNat (fromWire (s.rxAnswer (n.toNat + 2))) = .error c ∧
              t = (s.rxRead (n.toNat + 2)).clearLatch.fail c) ∨
           (∃ p, pldCheck n.toNat (fromWire (s.rxAnswer (n.toNat + 2))) = .ok p ∧ p.length = n.toNat ∧
              t = ((((s.rxRead (n.toNat + 2)).clearLatch).setBuf p).setRes n).ok))))) := by
  refine ⟨_, rfl, ?_⟩
  rcases hr : s.rxl with _ | n
  · left; exact ⟨rfl, by simp⟩
  · right
    refine ⟨n, rfl, ?_⟩
    simp only
    rcases s.clearLatch.receiving_cases (count n + 2)
      (fun t s1 => s1.judge (pldCheck (count n) t) fun p => ((s1.setBuf p).setRes n).ok) with ⟨hl, he⟩ | ⟨hl, he⟩
    · left; exact ⟨hl, he⟩
    · right
      refine ⟨hl, ?_⟩
      rcases pldCheck_cases n.toNat (fromWire (s.rxAnswer (n.toNat + 2))) with h | h | h
      · left; exact ⟨.eDcs, .inl rfl, h, he.trans (by simp [h, State.judge, count]; rfl)⟩
      · left; exact ⟨.ePost, .inr rfl, h, he.trans (by simp [h, State.judge, count]; rfl)⟩
      · right
        refine ⟨_, h, ?_, he.trans (by simp [h, State.judge, count]; rfl)⟩
        have hl' : (s.rxAnswer (n.toNat + 2)).length = n.toNat + 2 := hl
        simp [slice, hl']

/-- The states RX_ACK can end in (R155). -/
theorem execRxAck_cases (s : State) :
    ∃ t, exec .rxAck s = .next t ∧
      (((s.rxAnswer 6).length < 6 ∧ t = (s.rxRead 6).clearLatch.fail .eShortRead) ∨
       ((s.rxAnswer 6).length = 6 ∧
        ((ackCheck (fromWire (s.rxAnswer 6)) = .error .eAck ∧ t = (s.rxRead 6).clearLatch.fail .eAck) ∨
         (ackCheck (fromWire (s.rxAnswer 6)) = .ok () ∧ t = (s.rxRead 6).clearLatch.ok)))) := by
  refine ⟨_, rfl, ?_⟩
  rcases s.clearLatch.receiving_cases 6 (fun a s1 => s1.judge (ackCheck a) fun _ => s1.ok) with ⟨hl, he⟩ | ⟨hl, he⟩
  · left; exact ⟨hl, he⟩
  · right
    refine ⟨hl, ?_⟩
    rcases ackCheck_cases (fromWire (s.rxAnswer 6)) with h | h
    · left; exact ⟨h, he.trans (by simp [h, State.judge]; rfl)⟩
    · right; exact ⟨h, he.trans (by simp [h, State.judge]; rfl)⟩

/-- The states WIRE_RX can end in (R103). -/
theorem execWireRx_cases (a : Byte) (s : State) :
    ∃ t, exec (.wireRx a) s = .next t ∧
      (((s.rxAnswer a.toNat).length < a.toNat ∧ t = (s.rxRead a.toNat).clearLatch.fail .eShortRead) ∨
       ((s.rxAnswer a.toNat).length = a.toNat ∧
        t = ((((s.rxRead a.toNat).clearLatch).setBuf (fromWire (s.rxAnswer a.toNat))).setRes a).ok)) :=
  ⟨_, rfl, s.clearLatch.receiving_cases a.toNat fun bytes s1 => ((s1.setBuf bytes).setRes a).ok⟩

/-- The states RSP_RX can end in after a valid header of LEN `n` (R171). -/
theorem State.rspPayload_cases (n a b : Byte) (s : State) :
    (n.toNat < 2 ∧ s.rspPayload n a b = s.fail .eShortLen) ∨
    (2 ≤ n.toNat ∧
      (((s.rxAnswer (n.toNat + 2)).length < n.toNat + 2 ∧
          s.rspPayload n a b = (s.rxRead (n.toNat + 2)).fail .eShortRead) ∨
       ((s.rxAnswer (n.toNat + 2)).length = n.toNat + 2 ∧
        ((∃ c, (c = .eDcs ∨ c = .ePost) ∧ pldCheck n.toNat (fromWire (s.rxAnswer (n.toNat + 2))) = .error c ∧
            s.rspPayload n a b = (s.rxRead (n.toNat + 2)).fail c) ∨
         (∃ p, pldCheck n.toNat (fromWire (s.rxAnswer (n.toNat + 2))) = .ok p ∧ p.length = n.toNat ∧
            ((∃ c, rspCheck s.params p a b.toNat = .error c ∧
                s.rspPayload n a b = (s.rxRead (n.toNat + 2)).fail c) ∨
             (∃ body, rspCheck s.params p a b.toNat = .ok body ∧
                s.rspPayload n a b = (((s.rxRead (n.toNat + 2)).setBuf body).setRes (lenByte body)).ok))))))) := by
  unfold State.rspPayload
  by_cases hn : count n < Config.minRspLen
  · left; exact ⟨hn, if_pos hn⟩
  · right
    refine ⟨Nat.le_of_not_lt hn, ?_⟩
    rw [if_neg hn]
    rcases s.receiving_cases (count n + 2) (fun t s2 =>
        s2.judge (pldCheck (count n) t) fun p =>
          s2.judge (rspCheck s2.params p a (count b)) fun body => ((s2.setBuf body).setRes (lenByte body)).ok)
      with ⟨hl, he⟩ | ⟨hl, he⟩
    · left; exact ⟨hl, he⟩
    · right
      refine ⟨hl, ?_⟩
      have hl' : (s.rxAnswer (n.toNat + 2)).length = n.toNat + 2 := hl
      rcases pldCheck_cases n.toNat (fromWire (s.rxAnswer (n.toNat + 2))) with h | h | h
      · left; exact ⟨.eDcs, .inl rfl, h, he.trans (by simp [h, State.judge, count])⟩
      · left; exact ⟨.ePost, .inr rfl, h, he.trans (by simp [h, State.judge, count])⟩
      · right
        refine ⟨_, h, by simp [slice, hl'], ?_⟩
        rcases hc : rspCheck s.params (slice (fromWire (s.rxAnswer (n.toNat + 2))) 0 n.toNat) a b.toNat with c | body
        · left; exact ⟨c, rfl, he.trans (by simp [h, hc, State.judge, count])⟩
        · right; exact ⟨body, rfl, he.trans (by simp [h, hc, State.judge, count])⟩

/-- The states RSP_RX can end in (R171). -/
theorem execRspRx_cases (a b : Byte) (s : State) :
    ∃ t, exec (.rspRx a b) s = .next t ∧
      (((s.rxAnswer 5).length < 5 ∧ t = (s.rxRead 5).clearLatch.fail .eShortRead) ∨
       ((s.rxAnswer 5).length = 5 ∧
        ((∃ c, (c = .eStart ∨ c = .eLcs) ∧ hdrCheck (fromWire (s.rxAnswer 5)) = .error c ∧
            t = (s.rxRead 5).clearLatch.fail c) ∨
         (∃ n, hdrCheck (fromWire (s.rxAnswer 5)) = .ok n ∧ t = (s.rxRead 5).clearLatch.rspPayload n a b)))) := by
  refine ⟨_, rfl, ?_⟩
  rcases s.clearLatch.receiving_cases 5 (fun h s1 => s1.judge (hdrCheck h) fun n => s1.rspPayload n a b)
    with ⟨hl, he⟩ | ⟨hl, he⟩
  · left; exact ⟨hl, he⟩
  · right
    refine ⟨hl, ?_⟩
    rcases hdrCheck_cases (fromWire (s.rxAnswer 5)) with h | h | h
    · left; exact ⟨.eStart, .inl rfl, h, he.trans (by simp [h, State.judge]; rfl)⟩
    · left; exact ⟨.eLcs, .inr rfl, h, he.trans (by simp [h, State.judge]; rfl)⟩
    · right; exact ⟨_, h, he.trans (by simp [h, State.judge]; rfl)⟩

/-- The states HDR_PARSE can end in (R140). -/
theorem execHdrParse_cases (v : List Byte) (s : State) :
    ∃ t, exec (.hdrParse v) s = .next t ∧
      ((v.length ≠ 5 ∧ t = s.raiseFault .operand 0x11) ∨
       (v.length = 5 ∧
        ((∃ c, (c = .eStart ∨ c = .eLcs) ∧ hdrCheck v = .error c ∧ t = s.fail c) ∨
         (∃ n, hdrCheck v = .ok n ∧ t = (s.setRes n).ok)))) := by
  refine ⟨_, rfl, ?_⟩
  by_cases h : v.length = 5
  · right
    refine ⟨h, ?_⟩
    have hs : shapeFault (.hdrParse v) = none := if_pos h
    rcases hdrCheck_cases v with hc | hc | hc
    · left; exact ⟨.eStart, .inl rfl, hc, by simp [State.shaped, hs, hc, State.judge]⟩
    · left; exact ⟨.eLcs, .inr rfl, hc, by simp [State.shaped, hs, hc, State.judge]⟩
    · right; exact ⟨_, hc, by simp [State.shaped, hs, hc, State.judge]⟩
  · left
    have hs : shapeFault (.hdrParse v) = some .operand := if_neg h
    exact ⟨h, by simp [State.shaped, hs, opcode]⟩

/-- The states PLD_PARSE can end in (R142). -/
theorem execPldParse_cases (a : Byte) (v : List Byte) (s : State) :
    ∃ t, exec (.pldParse a v) s = .next t ∧
      ((v.length ≠ a.toNat + 2 ∧ t = s.raiseFault .operand 0x12) ∨
       (v.length = a.toNat + 2 ∧
        ((∃ c, (c = .eDcs ∨ c = .ePost) ∧ pldCheck a.toNat v = .error c ∧ t = s.fail c) ∨
         (∃ p, pldCheck a.toNat v = .ok p ∧ p.length = a.toNat ∧ t = ((s.setBuf p).setRes a).ok)))) := by
  refine ⟨_, rfl, ?_⟩
  by_cases h : v.length = a.toNat + 2
  · right
    refine ⟨h, ?_⟩
    have hs : shapeFault (.pldParse a v) = none := if_pos h
    rcases pldCheck_cases a.toNat v with hc | hc | hc
    · left; exact ⟨.eDcs, .inl rfl, hc, by simp [State.shaped, hs, count, hc, State.judge]⟩
    · left; exact ⟨.ePost, .inr rfl, hc, by simp [State.shaped, hs, count, hc, State.judge]⟩
    · right; exact ⟨_, hc, by simp [slice, h], by simp [State.shaped, hs, count, hc, State.judge]⟩
  · left
    have hs : shapeFault (.pldParse a v) = some .operand := if_neg h
    exact ⟨h, by simp [State.shaped, hs, opcode]⟩

/-- The states ACK_MATCH can end in (R145). -/
theorem execAckMatch_cases (v : List Byte) (s : State) :
    ∃ t, exec (.ackMatch v) s = .next t ∧
      ((v.length ≠ 6 ∧ t = s.raiseFault .operand 0x13) ∨
       (v.length = 6 ∧
        ((ackCheck v = .error .eAck ∧ t = s.fail .eAck) ∨ (ackCheck v = .ok () ∧ t = s.ok)))) := by
  refine ⟨_, rfl, ?_⟩
  by_cases h : v.length = 6
  · right
    refine ⟨h, ?_⟩
    have hs : shapeFault (.ackMatch v) = none := if_pos h
    rcases ackCheck_cases v with hc | hc
    · left; exact ⟨hc, by simp [State.shaped, hs, hc, State.judge]⟩
    · right; exact ⟨hc, by simp [State.shaped, hs, hc, State.judge]⟩
  · left
    have hs : shapeFault (.ackMatch v) = some .operand := if_neg h
    exact ⟨h, by simp [State.shaped, hs, opcode]⟩

/-- The states RSP_MATCH can end in (R170). -/
theorem execRspMatch_cases (a b : Byte) (v : List Byte) (s : State) :
    ∃ t, exec (.rspMatch a b v) s = .next t ∧
      ((255 < v.length ∧ t = s.raiseFault .operand 0x21) ∨
       (v.length ≤ 255 ∧
        ((∃ c, rspCheck s.params v a b.toNat = .error c ∧ t = s.fail c) ∨
         (∃ body, rspCheck s.params v a b.toNat = .ok body ∧ t = ((s.setBuf body).setRes (lenByte body)).ok)))) := by
  refine ⟨_, rfl, ?_⟩
  by_cases h : v.length ≤ 255
  · right
    refine ⟨h, ?_⟩
    have hs : shapeFault (.rspMatch a b v) = none := if_pos h
    rcases hc : rspCheck s.params v a b.toNat with c | body
    · left; exact ⟨c, rfl, by simp [State.shaped, hs, count, hc, State.judge]⟩
    · right; exact ⟨body, rfl, by simp [State.shaped, hs, count, hc, State.judge]⟩
  · left
    have hs : shapeFault (.rspMatch a b v) = some .operand := if_neg h
    exact ⟨by omega, by simp [State.shaped, hs, opcode]⟩

/-- The states FRM_BUILD can end in (R120). -/
theorem execFrmBuild_cases (v : List Byte) (s : State) :
    ∃ t, exec (.frmBuild v) s = .next t ∧
      ((255 < v.length ∧ t = s.raiseFault .txTooLong 0x10) ∨
       (v.length ≤ 255 ∧ t = ((s.setBuf (frame v)).setRes (lenByte v)).ok)) := by
  refine ⟨_, rfl, ?_⟩
  by_cases h : v.length ≤ 255
  · right
    have hs : shapeFault (.frmBuild v) = none := if_pos h
    exact ⟨h, by simp [State.shaped, hs]⟩
  · left
    have hs : shapeFault (.frmBuild v) = some .txTooLong := if_neg h
    exact ⟨by omega, by simp [State.shaped, hs, opcode]⟩

/-- The states TX_FRAME can end in (R124). -/
theorem execTxFrame_cases (v : List Byte) (s : State) :
    ∃ t, exec (.txFrame v) s = .next t ∧
      ((255 < v.length ∧ t = s.raiseFault .txTooLong 0x32) ∨ (v.length ≤ 255 ∧ t = s.sendFrame v)) := by
  refine ⟨_, rfl, ?_⟩
  by_cases h : v.length ≤ 255
  · right
    have hs : shapeFault (.txFrame v) = none := if_pos h
    exact ⟨h, by simp [State.shaped, hs]⟩
  · left
    have hs : shapeFault (.txFrame v) = some .txTooLong := if_neg h
    exact ⟨by omega, by simp [State.shaped, hs, opcode]⟩

/-- The states CMD_BUILD can end in (R122). -/
theorem execCmdBuild_cases (a : Byte) (v : List Byte) (s : State) :
    ∃ t, exec (.cmdBuild a v) s = .next t ∧
      ((253 < v.length ∧ t = s.raiseFault .txTooLong 0x20) ∨
       (v.length ≤ 253 ∧
        t = ((s.setBuf (cmdPayload s.params a v)).setRes (lenByte (cmdPayload s.params a v))).ok)) := by
  refine ⟨_, rfl, ?_⟩
  by_cases h : v.length ≤ 253
  · right
    have hs : shapeFault (.cmdBuild a v) = none := if_pos h
    exact ⟨h, by simp [State.shaped, hs]⟩
  · left
    have hs : shapeFault (.cmdBuild a v) = some .txTooLong := if_neg h
    exact ⟨by omega, by simp [State.shaped, hs, opcode]⟩

/-- The states CMD_TX can end in (R126). -/
theorem execCmdTx_cases (a : Byte) (v : List Byte) (s : State) :
    ∃ t, exec (.cmdTx a v) s = .next t ∧
      ((253 < v.length ∧ t = s.raiseFault .txTooLong 0x36) ∨
       (v.length ≤ 253 ∧ t = s.sendFrame (cmdPayload s.params a v))) := by
  refine ⟨_, rfl, ?_⟩
  by_cases h : v.length ≤ 253
  · right
    have hs : shapeFault (.cmdTx a v) = none := if_pos h
    exact ⟨h, by simp [State.shaped, hs]⟩
  · left
    have hs : shapeFault (.cmdTx a v) = some .txTooLong := if_neg h
    exact ⟨by omega, by simp [State.shaped, hs, opcode]⟩

/-- The states CSUM_CHK can end in (R111). -/
theorem execCsumChk_cases (a : Byte) (v : List Byte) (s : State) :
    ∃ t, exec (.csumChk a v) s = .next t ∧
      ((sumsToZero v a = true ∧ t = s.ok) ∨ (sumsToZero v a = false ∧ t = s.fail .eCsum)) := by
  refine ⟨_, rfl, ?_⟩
  cases h : sumsToZero v a
  · right; exact ⟨rfl, by simp⟩
  · left; exact ⟨rfl, by simp⟩

end Sys2Proof.Machine
end

