-- ==== Sys2Proof/Laws/HostSide.lean ====
section
/-! SUPPORT. The small facts about the result port and the watch, and the one way the watch comes to say that RX_PLD may
follow a header. -/

namespace Sys2Proof.Machine

@[simp] theorem State.resultPort_st (s : State) : s.resultPort.st = s.st := rfl
@[simp] theorem State.resultPort_res (s : State) : s.resultPort.res = s.res := rfl
@[simp] theorem State.resultPort_buf (s : State) : s.resultPort.buf = s.buf := rfl

/-- The host reads `FAILED` off the result port (R29). -/
@[simp] theorem State.resultPort_failed (s : State) : s.resultPort.failed = s.failed := rfl

@[simp] theorem Watch.frameRead_bracket (w : Watch) (stage : ReadStage) : (w.frameRead stage).bracket = .read stage := rfl
@[simp] theorem Watch.frameRead_ready (w : Watch) (stage : ReadStage) : (w.frameRead stage).ready = false := rfl
@[simp] theorem Watch.frameRead_ack (w : Watch) (stage : ReadStage) : (w.frameRead stage).ack = w.ack := rfl
@[simp] theorem Watch.frameRead_held (w : Watch) (stage : ReadStage) : (w.frameRead stage).held = [] := rfl
@[simp] theorem Watch.frameRead_header (w : Watch) (stage : ReadStage) : (w.frameRead stage).header = w.header := rfl

/-- After an operation the watch says that a header was just read only where that operation is a successful RX_HDR, or a
pure one after which it still says so. -/
theorem Watch.issue_header_cases {w w' : Watch} {i : Instr} {seen : Results} (h : w.issue i seen = some w')
    (hb : w'.bracket = .read .header) :
    (i = .rxHdr ∧ seen.failed = false) ∨ (isStream i = false ∧ w.bracket = .read .header) := by
  cases i <;> simp only [Watch.issue, Option.ite_none_right_eq_some, Option.some.injEq] at h
  case rxHdr =>
    obtain ⟨-, rfl⟩ := h
    cases hf : seen.failed <;> simp_all
  case pldParse a v => obtain ⟨-, rfl⟩ := h; exact .inr ⟨rfl, hb⟩
  case wireTx v => obtain ⟨hw, rfl⟩ := h; rcases hw with hw | hw <;> simp [hw] at hb
  case wireRx a => obtain ⟨-, rfl⟩ := h; simp at hb
  case txFrame v => obtain ⟨-, rfl⟩ := h; simp at hb
  case rxPld => obtain ⟨-, rfl⟩ := h; simp at hb
  case rxAck => obtain ⟨-, rfl⟩ := h; simp at hb
  case cmdTx a v => obtain ⟨-, rfl⟩ := h; simp at hb
  case rspRx a b => obtain ⟨-, rfl⟩ := h; simp at hb
  case hdrParse v => subst h; exact .inr ⟨rfl, hb⟩
  all_goals subst h; exact .inr ⟨rfl, hb⟩

/-- An act that is no operation leaves the watch saying that a header was just read only where it said so before, and
never when the act is a reset. -/
theorem Watch.act_header_cases {w w' : Watch} {a : HostAct} (hn : ∀ i seen, a ≠ .issue i seen) (h : w.act a = some w')
    (hb : w'.bracket = .read .header) : w.bracket = .read .header ∧ a ≠ .reset := by
  cases a <;> simp only [Watch.act, Option.ite_none_left_eq_some, Option.ite_none_right_eq_some, Option.some.injEq] at h
  case issue i seen => exact absurd rfl (hn i seen)
  case waitReady r => obtain ⟨hc, rfl⟩ := h; simp [hc] at hb
  case openWrite => obtain ⟨-, rfl⟩ := h; simp at hb
  case openRead => obtain ⟨-, rfl⟩ := h; simp at hb
  case close => obtain ⟨-, rfl⟩ := h; simp at hb
  case hold l => subst h; exact ⟨hb, nofun⟩
  case reset => subst h; revert hb; simp only; split <;> simp_all

end Sys2Proof.Machine
end

