-- ==== Sys2Proof/Laws/PerInstr.lean ====
section
/-! SUPPORT. The family Encoding, one lemma per constructor: the request of an operation carries its opcode, that opcode
is assigned, and the port carries the request exactly when the operation is well-formed. -/

namespace Sys2Proof.Laws.Encoding

/-- The encoding facts of one operation as syntax (R80 to R83). -/
def Statement (i : Instr) : Prop :=
  (encode i).op = opcode i ∧ assigned (opcode i) = true ∧ vFits (encode i).v = i.wf

theorem brev (a : Byte) : Statement (.brev a) := ⟨rfl, rfl, rfl⟩
theorem csumGen (v : List Byte) : Statement (.csumGen v) := ⟨rfl, rfl, rfl⟩
theorem csumChk (a : Byte) (v : List Byte) : Statement (.csumChk a v) := ⟨rfl, rfl, rfl⟩
theorem frmBuild (v : List Byte) : Statement (.frmBuild v) := ⟨rfl, rfl, rfl⟩
theorem hdrParse (v : List Byte) : Statement (.hdrParse v) := ⟨rfl, rfl, rfl⟩
theorem pldParse (a : Byte) (v : List Byte) : Statement (.pldParse a v) := ⟨rfl, rfl, rfl⟩
theorem ackMatch (v : List Byte) : Statement (.ackMatch v) := ⟨rfl, rfl, rfl⟩
theorem cmdBuild (a : Byte) (v : List Byte) : Statement (.cmdBuild a v) := ⟨rfl, rfl, rfl⟩
theorem rspMatch (a b : Byte) (v : List Byte) : Statement (.rspMatch a b v) := ⟨rfl, rfl, rfl⟩
theorem wireTx (v : List Byte) : Statement (.wireTx v) := ⟨rfl, rfl, rfl⟩
theorem wireRx (a : Byte) : Statement (.wireRx a) := ⟨rfl, rfl, rfl⟩
theorem txFrame (v : List Byte) : Statement (.txFrame v) := ⟨rfl, rfl, rfl⟩
theorem rxHdr : Statement .rxHdr := ⟨rfl, rfl, rfl⟩
theorem rxPld : Statement .rxPld := ⟨rfl, rfl, rfl⟩
theorem rxAck : Statement .rxAck := ⟨rfl, rfl, rfl⟩
theorem cmdTx (a : Byte) (v : List Byte) : Statement (.cmdTx a v) := ⟨rfl, rfl, rfl⟩
theorem rspRx (a b : Byte) : Statement (.rspRx a b) := ⟨rfl, rfl, rfl⟩

end Sys2Proof.Laws.Encoding
end

