-- ==== Sys2Proof/Tests/Slice0.lean ====
section
/-! SUPPORT. The model's own tests. Expected results are the vectors of 95_test_vectors.md (premises there:
`HOST_TO_CHIP_DIR = 0xD4`, `ACCEPT_EMPTY_BODY = false` unless said) or the table of R100, never the model's own answer.
The second half shows, for each obligation with hypotheses, operands and states that meet them. -/

namespace Sys2Proof.Tests

open Sys2Proof Sys2Proof.Machine

/-- The state of the vectors: reset, with the premise `HOST_TO_CHIP_DIR = 0xD4`. -/
def start : State := { State.reset with params := ⟨0xD4, false⟩ }

/-- `start` with an oracle wire stream. -/
def withWire (wire : List Byte) : State := { start with rxIn := [wire] }

/-- `start` with a latched length and an oracle wire stream. -/
def latched (n : Byte) (wire : List Byte) : State := { withWire wire with rxl := some n }

/-- `start` with one request on the port. -/
def issuing (op a b : Byte) (v : List Byte) : State := { start with pending := [.request ⟨op, a, b, v⟩] }

/-- What a test reads of an outcome. -/
def see {α : Type} (o : Host.Outcome State Fault Refusal) (f : State → α) : Option α :=
  match o with
  | .next s => some (f s)
  | .fault _ => none
  | .refused _ => none

/-! ## Decoding: a word of each constructor, from R82 and R80 -/

theorem test_decode_bit_adapter :
    decode ⟨0b00000001, 0xD4, 0x99, [0x77]⟩ = .ok (.brev 0xD4) ∧
    decode ⟨0b00110000, 0x99, 0x99, [0xD4, 0x02]⟩ = .ok (.wireTx [0xD4, 0x02]) ∧
    decode ⟨0b00110001, 0x03, 0x99, [0x77]⟩ = .ok (.wireRx 0x03) := by decide

theorem test_decode_checksum :
    decode ⟨0b00000010, 0x99, 0x99, [0x01]⟩ = .ok (.csumGen [0x01]) ∧
    decode ⟨0b00000011, 0x2A, 0x99, [0xD4, 0x02]⟩ = .ok (.csumChk 0x2A [0xD4, 0x02]) := by decide

theorem test_decode_frame_build :
    decode ⟨0b00010000, 0x99, 0x99, [0xD4]⟩ = .ok (.frmBuild [0xD4]) ∧
    decode ⟨0b00100000, 0x4A, 0x99, [0x01]⟩ = .ok (.cmdBuild 0x4A [0x01]) ∧
    decode ⟨0b00110010, 0x99, 0x99, [0xD4]⟩ = .ok (.txFrame [0xD4]) ∧
    decode ⟨0b00110110, 0x4A, 0x99, [0x01]⟩ = .ok (.cmdTx 0x4A [0x01]) := by decide

theorem test_decode_frame_parse :
    decode ⟨0b00010001, 0x99, 0x99, [0x00]⟩ = .ok (.hdrParse [0x00]) ∧
    decode ⟨0b00010010, 0x06, 0x99, [0x00]⟩ = .ok (.pldParse 0x06 [0x00]) ∧
    decode ⟨0b00010011, 0x99, 0x99, [0x00]⟩ = .ok (.ackMatch [0x00]) ∧
    decode ⟨0b00110011, 0x99, 0x99, [0x77]⟩ = .ok .rxHdr ∧
    decode ⟨0b00110100, 0x99, 0x99, [0x77]⟩ = .ok .rxPld ∧
    decode ⟨0b00110101, 0x99, 0x99, [0x77]⟩ = .ok .rxAck := by decide

theorem test_decode_envelope :
    decode ⟨0b00100001, 0x02, 0x04, [0xD5]⟩ = .ok (.rspMatch 0x02 0x04 [0xD5]) ∧
    decode ⟨0b00110111, 0x02, 0x04, [0x77]⟩ = .ok (.rspRx 0x02 0x04) := by decide

theorem test_decode_rejects_by_name :
    decode ⟨0x00, 0, 0, []⟩ = .error (.illegalOp 0x00) ∧ decode ⟨0x14, 0, 0, []⟩ = .error (.illegalOp 0x14) ∧
    decode ⟨0x38, 0, 0, []⟩ = .error (.illegalOp 0x38) := by decide

theorem test_decode_rejects_263_bytes : decode ⟨0x01, 0, 0, List.replicate 263 0⟩ = .error (.portOverflow 263) := by
  simp [-List.reduceReplicate, decode, vFits, Config.longestFrame, Config.maxLen]

theorem test_table_words :
    decodeTableWord 8 0x37 = some (.rspRx 0 0) ∧ decodeTableWord 8 0x13 = some (.ackMatch []) ∧
    decodeTableWord 40 0x02D4770612 = some (.pldParse 0x06 [0xD4, 0x02]) ∧ decodeTableWord 8 0xFF = none := by decide

/-- A table word runs as the first operation after reset. -/
theorem test_withFetchWord_runs :
    see (step (State.reset.withFetchWord 8 0x02)) (fun s => (s.st, s.res, s.pc, s.pending)) =
      some (0x00, 0x00, 1, []) := by decide

/-! ## Well-formedness: each check refuses an ill-formed term -/

/-- A vector operand one byte past what the port carries. -/
def tooWide : List Byte := List.replicate 263 0

theorem tooWide_does_not_fit : vFits tooWide = false := by
  simp [-List.reduceReplicate, vFits, tooWide, Config.longestFrame, Config.maxLen]

theorem test_wf_refuses_263_bytes :
    [Instr.csumGen tooWide, .csumChk 0 tooWide, .frmBuild tooWide, .hdrParse tooWide, .pldParse 0 tooWide,
      .ackMatch tooWide, .cmdBuild 0 tooWide, .rspMatch 0 0 tooWide, .wireTx tooWide, .txFrame tooWide,
      .cmdTx 0 tooWide].map Instr.wf = List.replicate 11 false := by
  simp [Instr.wf, tooWide_does_not_fit]

theorem test_wf_accepts_262_bytes : (Instr.wireTx (List.replicate 262 0)).wf = true := by
  simp [-List.reduceReplicate, Instr.wf, vFits, Config.longestFrame, Config.maxLen]

/-! ## The bit adapter (R100's table, §2.1) -/

set_option maxRecDepth 4000 in
theorem test_brev_table :
    (List.range 256).map (fun n => brev (BitVec.ofNat 8 n)) =
      [0x00, 0x80, 0x40, 0xC0, 0x20, 0xA0, 0x60, 0xE0, 0x10, 0x90, 0x50, 0xD0, 0x30, 0xB0, 0x70, 0xF0] ++
      [0x08, 0x88, 0x48, 0xC8, 0x28, 0xA8, 0x68, 0xE8, 0x18, 0x98, 0x58, 0xD8, 0x38, 0xB8, 0x78, 0xF8] ++
      [0x04, 0x84, 0x44, 0xC4, 0x24, 0xA4, 0x64, 0xE4, 0x14, 0x94, 0x54, 0xD4, 0x34, 0xB4, 0x74, 0xF4] ++
      [0x0C, 0x8C, 0x4C, 0xCC, 0x2C, 0xAC, 0x6C, 0xEC, 0x1C, 0x9C, 0x5C, 0xDC, 0x3C, 0xBC, 0x7C, 0xFC] ++
      [0x02, 0x82, 0x42, 0xC2, 0x22, 0xA2, 0x62, 0xE2, 0x12, 0x92, 0x52, 0xD2, 0x32, 0xB2, 0x72, 0xF2] ++
      [0x0A, 0x8A, 0x4A, 0xCA, 0x2A, 0xAA, 0x6A, 0xEA, 0x1A, 0x9A, 0x5A, 0xDA, 0x3A, 0xBA, 0x7A, 0xFA] ++
      [0x06, 0x86, 0x46, 0xC6, 0x26, 0xA6, 0x66, 0xE6, 0x16, 0x96, 0x56, 0xD6, 0x36, 0xB6, 0x76, 0xF6] ++
      [0x0E, 0x8E, 0x4E, 0xCE, 0x2E, 0xAE, 0x6E, 0xEE, 0x1E, 0x9E, 0x5E, 0xDE, 0x3E, 0xBE, 0x7E, 0xFE] ++
      [0x01, 0x81, 0x41, 0xC1, 0x21, 0xA1, 0x61, 0xE1, 0x11, 0x91, 0x51, 0xD1, 0x31, 0xB1, 0x71, 0xF1] ++
      [0x09, 0x89, 0x49, 0xC9, 0x29, 0xA9, 0x69, 0xE9, 0x19, 0x99, 0x59, 0xD9, 0x39, 0xB9, 0x79, 0xF9] ++
      [0x05, 0x85, 0x45, 0xC5, 0x25, 0xA5, 0x65, 0xE5, 0x15, 0x95, 0x55, 0xD5, 0x35, 0xB5, 0x75, 0xF5] ++
      [0x0D, 0x8D, 0x4D, 0xCD, 0x2D, 0xAD, 0x6D, 0xED, 0x1D, 0x9D, 0x5D, 0xDD, 0x3D, 0xBD, 0x7D, 0xFD] ++
      [0x03, 0x83, 0x43, 0xC3, 0x23, 0xA3, 0x63, 0xE3, 0x13, 0x93, 0x53, 0xD3, 0x33, 0xB3, 0x73, 0xF3] ++
      [0x0B, 0x8B, 0x4B, 0xCB, 0x2B, 0xAB, 0x6B, 0xEB, 0x1B, 0x9B, 0x5B, 0xDB, 0x3B, 0xBB, 0x7B, 0xFB] ++
      [0x07, 0x87, 0x47, 0xC7, 0x27, 0xA7, 0x67, 0xE7, 0x17, 0x97, 0x57, 0xD7, 0x37, 0xB7, 0x77, 0xF7] ++
      [0x0F, 0x8F, 0x4F, 0xCF, 0x2F, 0xAF, 0x6F, 0xEF, 0x1F, 0x9F, 0x5F, 0xDF, 0x3F, 0xBF, 0x7F, 0xFF] := by decide

theorem test_brev : see (exec (.brev 0xD4) start) (fun s => (s.st, s.res)) = some (0x00, 0x2B) := by decide

theorem test_wire_tx_clears_latch :
    see (exec (.wireTx [0x01]) (latched 0x06 [])) (fun s => (s.st, s.txLog, s.rxl)) = some (0x00, [0x80], none) := by
  decide

theorem test_wire_rx_short :
    see (exec (.wireRx 0x03) (withWire [0x2B, 0x40])) (fun s => (s.st, s.buf, s.rxIn)) =
      some (0x0D, [], []) ∧
    see (exec (.wireRx 0x03) (withWire [0x2B, 0x40])) (fun s => s.rxLog) = some [(3, [0x2B, 0x40])] := by decide

theorem test_wire_rx_reads_and_leaves_the_rest :
    see (exec (.wireRx 0x02) (withWire [0xFF, 0x80, 0x4C])) (fun s => (s.st, s.res, s.buf, s.rxIn)) =
      some (0x00, 0x02, [0xFF, 0x01], [[0x4C]]) := by decide

/-! ## The checksum validator (§2.2) -/

theorem test_csum_gen :
    see (exec (.csumGen [0xD5, 0x03, 0x32, 0x01, 0x06, 0x07]) start) (fun s => (s.st, s.res)) = some (0x00, 0xE8) ∧
    see (exec (.csumGen [0x80, 0x80]) start) (fun s => (s.st, s.res)) = some (0x00, 0x00) := by decide

theorem test_csum_chk :
    see (exec (.csumChk 0x2A [0xD4, 0x02]) start) (fun s => s.st) = some 0x00 ∧
    see (exec (.csumChk 0x2B [0xD4, 0x02]) start) (fun s => s.st) = some 0x06 := by decide

/-! ## Frame assembly (§2.3) -/

theorem test_frm_build :
    see (exec (.frmBuild [0xD4, 0x02]) start) (fun s => (s.st, s.res, s.buf)) =
      some (0x00, 0x02, [0x00, 0x00, 0xFF, 0x02, 0xFE, 0xD4, 0x02, 0x2A, 0x00]) := by decide

theorem test_frm_build_too_long :
    see (exec (.frmBuild (List.replicate 256 0x00)) start) (fun s => (s.st, s.buf, s.fault)) =
      some (0x00, [], some (.txTooLong, 0x10)) := by
  simp [-List.reduceReplicate, see, exec, execFrmBuild, State.shaped, shapeFault, Config.maxLen, State.raiseFault, opcode, start, State.reset]

theorem test_cmd_build :
    see (exec (.cmdBuild 0x4A [0x01, 0x00]) start) (fun s => (s.st, s.res, s.buf)) =
      some (0x00, 0x04, [0xD4, 0x4A, 0x01, 0x00]) := by decide

theorem test_cmd_build_too_long :
    see (exec (.cmdBuild 0x10 (List.replicate 254 0x55)) start) (fun s => s.fault) = some (some (.txTooLong, 0x20)) := by
  simp [-List.reduceReplicate, see, exec, execCmdBuild, State.shaped, shapeFault, Config.maxParams, Config.maxLen, State.raiseFault, opcode]

theorem test_tx_frame :
    see (exec (.txFrame [0xD4, 0x02]) (latched 0x06 [])) (fun s => (s.res, s.buf, s.txLog, s.rxl)) =
      some (0x02, [0x00, 0x00, 0xFF, 0x02, 0xFE, 0xD4, 0x02, 0x2A, 0x00],
        [0x00, 0x00, 0xFF, 0x40, 0x7F, 0x2B, 0x40, 0x54, 0x00], none) := by decide

theorem test_cmd_tx :
    see (exec (.cmdTx 0x4A [0x01, 0x00]) start) (fun s => (s.res, s.buf, s.txLog)) =
      some (0x04, [0x00, 0x00, 0xFF, 0x04, 0xFC, 0xD4, 0x4A, 0x01, 0x00, 0xE1, 0x00],
        [0x00, 0x00, 0xFF, 0x20, 0x3F, 0x2B, 0x52, 0x80, 0x00, 0x87, 0x00]) := by decide

/-! ## Frame parsing (§2.4) -/

theorem test_hdr_parse_order :
    see (exec (.hdrParse [0x01, 0x00, 0xFF, 0x06, 0xFB]) start) (fun s => s.st) = some 0x01 ∧
    see (exec (.hdrParse [0x00, 0x00, 0xFF, 0x00, 0xFF]) start) (fun s => s.st) = some 0x02 := by decide

theorem test_hdr_parse :
    see (exec (.hdrParse [0x00, 0x00, 0xFF, 0xFF, 0x01]) start) (fun s => (s.st, s.res)) = some (0x00, 0xFF) ∧
    see (exec (.hdrParse [0x00, 0x00, 0xFF, 0x06]) start) (fun s => s.fault) = some (some (.operand, 0x11)) := by decide

theorem test_pld_parse :
    see (exec (.pldParse 0x06 [0xD5, 0x03, 0x32, 0x01, 0x06, 0x07, 0xE8, 0x00]) start) (fun s => (s.st, s.res, s.buf)) =
      some (0x00, 0x06, [0xD5, 0x03, 0x32, 0x01, 0x06, 0x07]) := by decide

theorem test_pld_parse_order :
    see (exec (.pldParse 0x06 [0xD5, 0x03, 0x32, 0x01, 0x06, 0x07, 0xE9, 0x01]) start) (fun s => s.st) = some 0x03 ∧
    see (exec (.pldParse 0x00 [0x00, 0xFF]) start) (fun s => s.st) = some 0x04 := by decide

theorem test_ack_match :
    see (exec (.ackMatch [0x00, 0x00, 0xFF, 0x00, 0xFF, 0x00]) start) (fun s => s.st) = some 0x00 ∧
    see (exec (.ackMatch [0x00, 0x00, 0xFF, 0x00, 0xFE, 0x00]) start) (fun s => s.st) = some 0x05 := by decide

theorem test_rx_hdr :
    see (exec .rxHdr (withWire [0x00, 0x00, 0xFF, 0x60, 0x5F])) (fun s => (s.st, s.res, s.rxl, s.buf)) =
      some (0x00, 0x06, some 0x06, []) := by decide

theorem test_rx_hdr_unreversed_bytes :
    see (exec .rxHdr (latched 0x09 [0x00, 0x00, 0xFF, 0x06, 0xFA])) (fun s => (s.st, s.res, s.rxl)) =
      some (0x02, 0x00, none) := by decide

theorem test_rx_pld :
    see (exec .rxPld (latched 0x06 [0xAB, 0xC0, 0x4C, 0x80, 0x60, 0xE0, 0x17, 0x00]))
      (fun s => (s.st, s.res, s.buf, s.rxl)) =
      some (0x00, 0x06, [0xD5, 0x03, 0x32, 0x01, 0x06, 0x07], none) := by decide

theorem test_rx_pld_without_header :
    see (exec .rxPld (withWire [0xAB])) (fun s => (s.st, s.rxIn, s.rxLog)) = some (0x0C, [[0xAB]], []) := by decide

theorem test_rx_ack :
    see (exec .rxAck (withWire [0x00, 0x00, 0xFF, 0x00, 0xFF, 0x00])) (fun s => s.st) = some 0x00 ∧
    see (exec .rxAck (withWire [0x00, 0x00, 0xFF, 0x00, 0xFF, 0x80])) (fun s => s.st) = some 0x05 := by decide

/-! ## The response envelope (§2.5) -/

theorem test_rsp_match_echo_wraps :
    see (exec (.rspMatch 0xFF 0x01 [0xD5, 0x00, 0xAA]) start) (fun s => (s.st, s.res, s.buf)) =
      some (0x00, 0x01, [0xAA]) := by decide

theorem test_rsp_match_empty_body :
    see (exec (.rspMatch 0x02 0x04 [0xD5, 0x03]) start) (fun s => s.st) = some 0x0A ∧
    see (exec (.rspMatch 0x02 0x04 [0xD5, 0x03]) { start with params := ⟨0xD4, true⟩ }) (fun s => (s.st, s.res, s.buf)) =
      some (0x00, 0x00, []) := by decide

theorem test_rsp_rx :
    see (exec (.rspRx 0x02 0x04) (withWire [0x00, 0x00, 0xFF, 0x60, 0x5F, 0xAB, 0xC0, 0x4C, 0x80, 0x60, 0xE0, 0x17, 0x00]))
      (fun s => (s.st, s.res, s.buf)) = some (0x00, 0x04, [0x32, 0x01, 0x06, 0x07]) := by decide

theorem test_rsp_rx_short_length_leaves_the_payload :
    see (exec (.rspRx 0x02 0xFF) (withWire [0x00, 0x00, 0xFF, 0x80, 0xFF, 0xFE, 0x81, 0x00])) (fun s => (s.st, s.rxIn)) =
      some (0x07, [[0xFE, 0x81, 0x00]]) := by decide

/-! ## The step (program P4) -/

theorem test_step_unassigned_opcode :
    see (step (issuing 0x00 0 0 [])) (fun s => (s.st, s.fault, s.pc)) = some (0x00, some (.illegalOp, 0x00), 0) := by
  decide

theorem test_step_faulted_block_takes_no_request :
    step { issuing 0x01 0x02 0 [] with fault := some (.illegalOp, 0x00) } = .fault (.blockFaulted .illegalOp 0x00) := by
  rfl

theorem test_step_reset_clears_fault :
    see (step { start with fault := some (.illegalOp, 0x00), res := 0x80, pending := [.reset] })
      (fun s => (s.fault, s.res, s.pc)) = some (none, 0x00, 0) := by decide

/-! ## The host's side (R86, R87, R240 to R243) -/

theorem test_assembler :
    assembler (.rspMatch 0x02 0x04 [0xD5, 0x03]) = "RSP_MATCH 0x02, 4, [D5 03]" ∧ assembler .rxHdr = "RX_HDR" ∧
    assembler (.csumChk 0x2A [0xD4, 0x02]) = "CSUM_CHK 0x2A, [D4 02]" := by decide

theorem test_pseudo_lcs_gen : lcsGen 0x04 = [.request (.csumGen [0x04])] ∧
    see (exec (.csumGen [0x04]) start) (fun s => s.res) = some 0xFC := by decide

theorem test_ready_status_on_wire : readyStatusOnWire = 0x80 := by decide

theorem test_init_sequence :
    initSequence = [.request (.cmdTx 0x02 []), .waitReady, .request .rxAck, .waitReady, .request (.rspRx 0x02 4)] := by
  decide

/-- A result port of a success, and one of a failure. -/
def good (res : Byte) (buf : List Byte) : Results := ⟨0x00, res, buf⟩
def bad : Results := ⟨0x02, 0x00, []⟩

/-- The firmware exchange of program P1, with its host steps, keeps the duties (R240, R242, R243). -/
theorem test_duties_kept :
    Watch.start.dutiful [.openWrite, .issue (.cmdTx 0x02 []) (good 0x02 []), .close, .waitReady true, .openRead,
      .issue .rxAck (good 0x02 []), .close, .waitReady true, .openRead,
      .issue (.rspRx 0x02 0x04) (good 0x04 [0x32, 0x01, 0x06, 0x07]), .close] = true := by decide

/-- R240: reading without `wait_ready`. R241: a stray access, and a reset, before RX_PLD. -/
theorem test_duties_of_the_header :
    Watch.start.dutiful [.openRead, .issue .rxHdr (good 0x06 [])] = false ∧
    Watch.start.dutiful [.waitReady true, .openRead, .issue .rxHdr (good 0x06 []), .issue .rxPld (good 0x06 [])] = true ∧
    Watch.start.dutiful [.waitReady true, .openRead, .issue .rxHdr (good 0x06 []), .issue (.wireRx 0x02) (good 0x02 []),
      .issue .rxPld bad] = false ∧
    Watch.start.dutiful [.waitReady true, .openRead, .issue .rxHdr (good 0x06 []), .reset, .issue .rxPld bad] = false := by
  decide

/-- R241 for the pure forms: the LEN of the header and the bytes that follow it, read by WIRE_RX or held (program P2). -/
theorem test_duties_of_the_pure_forms :
    Watch.start.dutiful [.openRead, .issue (.wireRx 0x05) (good 0x05 [0x00, 0x00, 0xFF, 0x01, 0xFF]),
      .issue (.hdrParse [0x00, 0x00, 0xFF, 0x01, 0xFF]) (good 0x01 []), .issue (.wireRx 0x03) (good 0x03 [0x7F, 0x81, 0x00]),
      .issue (.pldParse 0x01 [0x7F, 0x81, 0x00]) (good 0x01 [0x7F])] = true ∧
    Watch.start.dutiful [.openRead, .issue (.wireRx 0x05) (good 0x05 [0x00, 0x00, 0xFF, 0x01, 0xFF]),
      .issue (.hdrParse [0x00, 0x00, 0xFF, 0x01, 0xFF]) (good 0x01 []), .issue (.wireRx 0x03) (good 0x03 [0x7F, 0x81, 0x00]),
      .issue (.pldParse 0x01 [0x80, 0x80, 0x00]) (good 0x01 [0x80])] = false ∧
    Watch.start.dutiful [.hold [0x00, 0x00, 0xFF, 0x00, 0x00, 0x00, 0x00],
      .issue (.hdrParse [0x00, 0x00, 0xFF, 0x00, 0x00]) (good 0x00 []),
      .issue (.pldParse 0x00 [0x00, 0x00]) (good 0x00 [])] = true := by decide

/-- R242: a second CMD_TX before RX_ACK, and a response read after a failed one. -/
theorem test_duties_of_the_order :
    Watch.start.dutiful [.openWrite, .issue (.cmdTx 0x02 []) (good 0x02 []), .close,
      .openWrite, .issue (.cmdTx 0x02 []) (good 0x02 [])] = false ∧
    Watch.start.dutiful [.openWrite, .issue (.cmdTx 0x02 []) (good 0x02 []), .close, .waitReady true, .openRead,
      .issue .rxAck bad, .close, .waitReady true, .openRead, .issue (.rspRx 0x02 0x04) bad] = false := by decide

/-- R243: two frames in one write bracket, and a poll inside a read bracket. -/
theorem test_duties_of_the_brackets :
    Watch.start.dutiful [.openWrite, .issue (.txFrame []) (good 0x00 []), .issue (.txFrame []) (good 0x00 [])] = false ∧
    Watch.start.dutiful [.waitReady true, .openRead, .issue .rxAck (good 0x00 []), .waitReady true] = false := by decide

/-! ## Witnesses: states and operands that meet the hypotheses of each obligation, clause by clause, at the boundary
values of each clause -/

/-- `n` zero bytes. -/
def zeros (n : Nat) : List Byte := List.replicate n 0x00

theorem zeros_length (n : Nat) : (zeros n).length = n := by simp [zeros]

/-- `start` with the host's moves waiting. -/
def host (moves : List HostMove) : State := { start with pending := moves }

/-- `start` with the transport's answers written out. -/
def answers (l : List (List Byte)) : State := { start with rxIn := l }

/-- `start` in the sticky fault of an unassigned opcode, with the host's moves waiting. -/
def faulted (moves : List HostMove) : State := { host moves with fault := some (.illegalOp, 0x00) }

/-- Operation `i` completes from `s` and leaves `t`, which satisfies `p`. -/
def Leaves (i : Instr) (s : State) (p : State → Prop) : Prop :=
  ∃ t, exec i s = .next t ∧ s.fault = none ∧ t.fault = none ∧ p t

/-- Operation `i` answers a next state from `s`, and it satisfies `p`. -/
def Answers (i : Instr) (s : State) (p : State → Prop) : Prop := ∃ t, exec i s = .next t ∧ p t

theorem witness_HostResetTouchesNoTransport :
    (host [.reset]).pending = .reset :: [] ∧ (faulted [.reset, .reset]).pending = .reset :: [.reset] := ⟨rfl, rfl⟩

theorem witness_OnlyResetClearsFault :
    ∃ t, step (faulted [.reset]) = .next t ∧ (faulted [.reset]).fault ≠ none ∧ t.fault = none := ⟨_, rfl, by decide⟩

theorem witness_FaultedBlockTakesNoRequest :
    (faulted [.request ⟨0x01, 0, 0, []⟩]).fault = some (.illegalOp, 0x00) ∧
    (faulted [.request ⟨0x01, 0, 0, []⟩]).pending = .request ⟨0x01, 0, 0, []⟩ :: [] := ⟨rfl, rfl⟩

theorem witness_IdleBlockKeepsAllState : (host []).pending = [] ∧ (faulted []).pending = [] := ⟨rfl, rfl⟩

theorem witness_StepRunsTheDecodedOperation :
    (issuing 0x01 0xD4 0 []).fault = none ∧ (issuing 0x01 0xD4 0 []).pending = .request ⟨0x01, 0xD4, 0, []⟩ :: [] ∧
    decode ⟨0x01, 0xD4, 0, []⟩ = .ok (.brev 0xD4) := by decide

/-- Both ends of every range of unassigned opcodes, and of every range of assigned ones; `V` as long as it may be. -/
theorem witness_UnassignedOpcodeFaults :
    (issuing 0x00 0 0 (zeros 262)).fault = none ∧
    (issuing 0x00 0 0 (zeros 262)).pending = .request ⟨0x00, 0, 0, zeros 262⟩ :: [] ∧ (zeros 262).length ≤ 262 ∧
    [0x00#8, 0x04#8, 0x0F#8, 0x14#8, 0x1F#8, 0x22#8, 0x2F#8, 0x38#8, 0xFF#8].map assigned = List.replicate 9 false ∧
    [0x01#8, 0x03#8, 0x10#8, 0x13#8, 0x20#8, 0x21#8, 0x30#8, 0x37#8].map assigned = List.replicate 8 true := by
  refine ⟨rfl, rfl, ?_, by decide, by decide⟩
  rw [zeros_length]

theorem witness_OversizedRequestIsRefused :
    (issuing 0x01 0 0 (zeros 263)).fault = none ∧
    (issuing 0x01 0 0 (zeros 263)).pending = .request ⟨0x01, 0, 0, zeros 263⟩ :: [] ∧ 262 < (zeros 263).length := by
  refine ⟨rfl, rfl, ?_⟩
  rw [zeros_length]; decide

theorem witness_DecodeEncodeRoundTrip :
    (Instr.rspMatch 0xFF 0x80 (zeros 262)).wf = true ∧ (Instr.rspRx 0xFF 0xFF).wf = true ∧ Instr.rxHdr.wf = true := by
  refine ⟨?_, rfl, rfl⟩
  simp [Instr.wf, vFits, zeros_length, Config.longestFrame, Config.maxLen]

/-- One request of each of the six formats. -/
theorem witness_DecodeReadsTheFormatsOperands :
    decode ⟨0x33, 1, 2, [3]⟩ = .ok .rxHdr ∧ decode ⟨0x31, 1, 2, [3]⟩ = .ok (.wireRx 1) ∧
    decode ⟨0x30, 1, 2, [3]⟩ = .ok (.wireTx [3]) ∧ decode ⟨0x36, 1, 2, [3]⟩ = .ok (.cmdTx 1 [3]) ∧
    decode ⟨0x37, 1, 2, [3]⟩ = .ok (.rspRx 1 2) ∧ decode ⟨0x21, 1, 2, [3]⟩ = .ok (.rspMatch 1 2 [3]) := by decide

/-- Two requests of format AB that differ in `V`, and two of format V that differ in `A` and `B`. -/
theorem witness_UnreadOperandsAreIgnored :
    (formatOf 0x37 = some .AB ∧ (Format.AB.readsA = true → (1 : Byte) = 1) ∧ (Format.AB.readsB = true → (2 : Byte) = 2) ∧
      (Format.AB.readsV = true → ([0x77] : List Byte) = [])) ∧
    (formatOf 0x30 = some .V ∧ (Format.V.readsA = true → (1 : Byte) = 3) ∧ (Format.V.readsB = true → (2 : Byte) = 4) ∧
      (Format.V.readsV = true → ([0x77] : List Byte) = [0x77])) ∧
    ([0x77] : List Byte).length ≤ 262 := by decide

/-- Every result statement says the request decodes to the operation for each `V` of at most 262 bytes. -/
theorem witness_longest_request : (zeros 262).length ≤ 262 := by rw [zeros_length]

theorem witness_BrevReversesTheBits : (zeros 262).length ≤ 262 ∧ 0 < 8 ∧ 7 < 8 :=
  ⟨witness_longest_request, by decide, by decide⟩

theorem witness_WireTxSendsReversedBytes : (zeros 262).length ≤ 262 := witness_longest_request

theorem witness_CsumGenGivesTheInverseOfTheSum : (zeros 262).length ≤ 262 := witness_longest_request

theorem witness_CsumChkPassesExactlyOnSumZero : (zeros 262).length ≤ 262 := witness_longest_request

theorem witness_WireRxReceivesReversedBytes :
    ((withWire [0x2B, 0x40]).rxAnswer (0x03 : Byte).toNat).length < (0x03 : Byte).toNat ∧
    ((withWire []).rxAnswer (0x01 : Byte).toNat).length < (0x01 : Byte).toNat ∧
    ((withWire [0x2B]).rxAnswer (0x00 : Byte).toNat).length = (0x00 : Byte).toNat ∧
    ((withWire (zeros 255)).rxAnswer (0xFF : Byte).toNat).length = (0xFF : Byte).toNat := by
  refine ⟨by decide, by decide, by decide, ?_⟩
  simp [withWire, State.rxAnswer, zeros_length]

theorem witness_ReadTakesTheOraclesAnswer :
    start.rxIn = [] ∧ (withWire [0x2B, 0x40, 0x4C]).rxIn = [0x2B, 0x40, 0x4C] :: [] ∧
    ([0x2B, 0x40] : List Byte).length ≤ 2 ∧ ([] : List Byte).length ≤ 0 := by decide

theorem witness_ChecksumArithmeticIsModular : (zeros 262).length ≤ 262 := witness_longest_request

theorem witness_ChecksumDetection :
    (0x01 : Byte) ≠ 0x02 ∧ sumsToZero ([0xD4] ++ 0x01 :: []) 0x2B = true ∧ (0x2A : Byte) ≠ 0x2B ∧
    sumsToZero [0xD4, 0x02] 0x2A = true ∧ [(0xD4 : Byte), 0x02].Perm [0x02, 0xD4] := by decide

theorem witness_FrameLayout : ([] : List Byte).length ≤ 255 ∧ (zeros 255).length ≤ 255 := by simp [zeros_length]

/-- The longest payload and the shortest that is too long. -/
theorem witness_FrmBuildAssemblesTheFrame : (zeros 255).length ≤ 255 ∧ 255 < (zeros 256).length := by simp [zeros_length]

/-- The longest parameter list and the shortest that is too long. -/
theorem witness_CmdBuildPrependsDirectionAndCode : (zeros 253).length ≤ 253 ∧ 253 < (zeros 254).length := by
  simp [zeros_length]

theorem witness_TxFrameSendsTheFrame : (zeros 255).length ≤ 255 ∧ 255 < (zeros 256).length :=
  witness_FrmBuildAssemblesTheFrame

theorem witness_CmdTxSendsTheCommandFrame : (zeros 253).length ≤ 253 ∧ 253 < (zeros 254).length :=
  witness_CmdBuildPrependsDirectionAndCode

/-- Each of the four assembly operations, and one of them on its fault. -/
theorem witness_AssemblyIgnoresTheOracle :
    [Instr.frmBuild [0xD4], .cmdBuild 0x02 [], .txFrame [0xD4], .cmdTx 0x02 []].map opcode =
      [0x10#8, 0x20#8, 0x32#8, 0x36#8] ∧
    Answers (.frmBuild [0xD4]) start (fun t => t.st = 0x00) ∧ Answers (.cmdBuild 0x02 []) start (fun t => t.st = 0x00) ∧
    Answers (.txFrame [0xD4]) start (fun t => t.st = 0x00) ∧ Answers (.cmdTx 0x02 []) start (fun t => t.st = 0x00) :=
  ⟨by decide, ⟨_, rfl, rfl⟩, ⟨_, rfl, rfl⟩, ⟨_, rfl, rfl⟩, ⟨_, rfl, rfl⟩⟩

theorem witness_HdrParseJudgesTheHeader : (zeros 4).length ≠ 5 ∧ (zeros 6).length ≠ 5 := by simp [zeros_length]

theorem witness_PldParseJudgesThePayload :
    ([] : List Byte).length = (0x00 : Byte).toNat ∧ (zeros 255).length = (0xFF : Byte).toNat ∧
    (zeros 1).length ≠ (0x00 : Byte).toNat + 2 ∧ (zeros 256).length ≠ (0xFF : Byte).toNat + 2 := by simp [zeros_length]

theorem witness_AckMatchComparesExactly : (zeros 6).length = 6 ∧ (zeros 5).length ≠ 6 ∧ (zeros 7).length ≠ 6 := by
  simp [zeros_length]

/-- Four bytes are too few; five are a header: bad start, bad LCS and good ones. -/
theorem witness_RxHdrPeeksTheHeader :
    ((withWire [0x00, 0x00, 0xFF, 0x60]).rxAnswer 5).length < 5 ∧
    ((withWire [0x80, 0x00, 0xFF, 0x60, 0x5F]).rxAnswer 5).map brev = [0x01, 0x00, 0xFF, 0x06, 0xFA] ∧
    ((withWire [0x00, 0x00, 0xFF, 0x06, 0xFA]).rxAnswer 5).map brev = [0x00, 0x00, 0xFF, 0x60, 0x5F] ∧
    ((withWire [0x00, 0x00, 0xFF, 0x60, 0x5F, 0xAB]).rxAnswer 5).map brev = [0x00, 0x00, 0xFF, 0x06, 0xFA] := by decide

set_option maxRecDepth 4000 in
/-- No latch; a latch of 0 and of 255, each with one byte too few and with a whole payload. -/
theorem witness_RxPldReadsTheLatchedLength :
    start.rxl = none ∧ (latched 0x00 [0x00]).rxl = some 0x00 ∧ (latched 0xFF (zeros 256)).rxl = some 0xFF ∧
    ((latched 0x00 [0x00]).rxAnswer ((0x00 : Byte).toNat + 2)).length < (0x00 : Byte).toNat + 2 ∧
    ((latched 0xFF (zeros 256)).rxAnswer ((0xFF : Byte).toNat + 2)).length < (0xFF : Byte).toNat + 2 ∧
    ((latched 0x00 (zeros 2)).rxAnswer ((0x00 : Byte).toNat + 2)).map brev = [] ++ [0x00, 0x00] ∧
    (zeros 255).length = (0xFF : Byte).toNat ∧
    ((latched 0xFF (zeros 257)).rxAnswer ((0xFF : Byte).toNat + 2)).map brev = zeros 255 ++ [0x00, 0x00] := by decide

theorem witness_RxAckComparesExactly :
    ((withWire (zeros 5)).rxAnswer 6).length < 6 ∧ ((withWire (zeros 6)).rxAnswer 6).length = 6 ∧
    ((withWire [0x00, 0x00, 0xFF, 0x00, 0xFF, 0x00]).rxAnswer 6).length = 6 := by decide

theorem witness_RspMatchCorrelatesTheResponse :
    ([] : List Byte).length < 2 ∧ (zeros 1).length < 2 ∧ ([] : List Byte).length ≤ 253 ∧ (zeros 253).length ≤ 253 ∧
    255 < (zeros 256).length := by simp [zeros_length]

/-- The clauses up to the header: too few bytes, a bad start, a bad LCS, LEN 1 and LEN 2. -/
theorem witness_RspRx_header :
    ((answers [zeros 4]).rxAnswer 5).length < 5 ∧ (0x01 : Byte) ≠ 0x00 ∧
    ((answers [[0x80, 0x00, 0xFF, 0x80, 0xFF]]).rxAnswer 5).map brev = [0x01, 0x00, 0xFF, 0x01, 0xFF] ∧
    ((answers [[0x00, 0x00, 0xFF, 0x80, 0x80]]).rxAnswer 5).map brev = [0x00, 0x00, 0xFF, 0x01, 0x01] ∧
    ((0x01 : Byte).toNat + (0x01 : Byte).toNat) % 256 ≠ 0 ∧
    ((answers [[0x00, 0x00, 0xFF, 0x80, 0xFF]]).rxAnswer 5).map brev = [0x00, 0x00, 0xFF, 0x01, 0xFF] ∧
    ((0x01 : Byte).toNat + (0xFF : Byte).toNat) % 256 = 0 ∧ (0x01 : Byte).toNat < 2 ∧
    ((answers [[0x00, 0x00, 0xFF, 0x40, 0x7F]]).rxAnswer 5).map brev = [0x00, 0x00, 0xFF, 0x02, 0xFE] ∧
    ((0x02 : Byte).toNat + (0xFE : Byte).toNat) % 256 = 0 ∧ 2 ≤ (0x02 : Byte).toNat := by decide

/-- The header LEN 255, and its wire bytes. -/
def header255 : List Byte := [0x00, 0x00, 0xFF, 0xFF, 0x80]

set_option maxRecDepth 4000 in
/-- The clauses of the payload: LEN 2 and LEN 255, each with one byte too few and whole. -/
theorem witness_RspRxReceivesOneResponse :
    (((answers [[0x00, 0x00, 0xFF, 0x40, 0x7F], zeros 3]).rxRead 5).rxAnswer 4).length < 4 ∧
    (((answers [[0x00, 0x00, 0xFF, 0x40, 0x7F], zeros 4]).rxRead 5).rxAnswer 4).map brev =
      0x00 :: 0x00 :: ([] ++ [0x00, 0x00]) ∧
    ((answers [header255]).rxAnswer 5).map brev = [0x00, 0x00, 0xFF, 0xFF, 0x01] ∧
    (((answers [header255, zeros 256]).rxRead 5).rxAnswer 257).length < 257 ∧
    (zeros 253).length + 2 = (0xFF : Byte).toNat ∧
    (((answers [header255, zeros 257]).rxRead 5).rxAnswer 257).map brev =
      0x00 :: 0x00 :: (zeros 253 ++ [0x00, 0x00]) := by decide

/-- The wire bytes of the firmware response of §8. -/
def firmware : List Byte := [0x00, 0x00, 0xFF, 0x60, 0x5F, 0xAB, 0xC0, 0x4C, 0x80, 0x60, 0xE0, 0x17, 0x00]

theorem witness_SuccessfulResponseCountsItsBody :
    Answers (.rspRx 0x02 0x04) (withWire firmware) (fun t => t.st = 0x00 ∧ t.res = 0x04) := ⟨_, rfl, by decide⟩

/-- The hypotheses of the round trip for the payload `p`: in some state the transport returns its frame's wire form. -/
def RoundTripPremise (p : List Byte) : Prop :=
  p.length ≤ 255 ∧ ∃ s : State, s.rxAnswer 5 = ((frame p).map brev).take 5 ∧
    (s.rxRead 5).rxAnswer (p.length + 2) = ((frame p).map brev).drop 5

set_option maxRecDepth 4000 in
/-- The shortest payload, the firmware command's and the longest. -/
theorem witness_FrameRoundTrip :
    RoundTripPremise [] ∧ RoundTripPremise [0xD4, 0x02] ∧ RoundTripPremise (zeros 255) :=
  ⟨⟨by decide, withWire ((frame []).map brev), by decide⟩,
    ⟨by decide, withWire ((frame [0xD4, 0x02]).map brev), by decide⟩,
    ⟨by decide, withWire ((frame (zeros 255)).map brev), by decide⟩⟩

/-- The firmware response, and an empty body where that is accepted. -/
theorem witness_WellMadeResponseIsAccepted :
    (([0x32, 0x01, 0x06, 0x07] : List Byte) = [] → (withWire firmware).params.acceptEmptyBody = true) ∧
    ([0x32, 0x01, 0x06, 0x07] : List Byte).length ≤ 253 ∧
    ([0x32, 0x01, 0x06, 0x07] : List Byte).length ≤ (0x04 : Byte).toNat ∧
    (withWire firmware).rxAnswer 5 = (toWire (frame (0xD5 :: (0x02 + 1) :: [0x32, 0x01, 0x06, 0x07]))).take 5 ∧
    ((withWire firmware).rxRead 5).rxAnswer (([0x32, 0x01, 0x06, 0x07] : List Byte).length + 4) =
      (toWire (frame (0xD5 :: (0x02 + 1) :: [0x32, 0x01, 0x06, 0x07]))).drop 5 ∧
    (∃ s : State, s.params.acceptEmptyBody = true ∧ s.rxAnswer 5 = (toWire (frame (0xD5 :: (0x02 + 1) :: []))).take 5 ∧
      (s.rxRead 5).rxAnswer (([] : List Byte).length + 4) = (toWire (frame (0xD5 :: (0x02 + 1) :: []))).drop 5) := by
  refine ⟨by decide, by decide, by decide, by decide, by decide, ?_⟩
  exact ⟨{ withWire (toWire (frame (0xD5 :: (0x02 + 1) :: []))) with params := ⟨0xD4, true⟩ }, by decide⟩

/-- Both outcomes of the read in each part; the shortest and the longest LEN of the payload part. -/
theorem witness_StreamFormsEqualPureForms :
    Answers .rxHdr (withWire firmware) (fun t => t.st = 0x00) ∧ Answers .rxHdr (withWire [0x00]) (fun t => t.st = 0x0D) ∧
    Answers .rxAck (withWire [0x00, 0x00, 0xFF, 0x00, 0xFF, 0x00]) (fun t => t.st = 0x00) ∧
    Answers .rxAck (withWire [0x00]) (fun t => t.st = 0x0D) ∧
    (latched 0x00 (zeros 2)).rxl = some 0x00 ∧ (0x00 : Byte).toNat ≤ 253 ∧ (0xFD : Byte).toNat ≤ 253 ∧
    Answers .rxPld (latched 0x00 (zeros 2)) (fun t => t.st = 0x00) ∧
    Answers .rxPld (latched 0xFD []) (fun t => t.st = 0x0D) :=
  ⟨⟨_, rfl, by decide⟩, ⟨_, rfl, by decide⟩, ⟨_, rfl, by decide⟩, ⟨_, rfl, by decide⟩, rfl, by decide, by decide,
    ⟨_, rfl, by decide⟩, ⟨_, rfl, by decide⟩⟩

/-- Each way through: no header, LEN below 2, a bad payload, a mismatch, success. -/
theorem witness_RspRxDecomposes :
    Answers (.rspRx 0x02 0x04) (withWire [0x00]) (fun t => t.st = 0x0D) ∧
    Answers (.rspRx 0x02 0xFF) (withWire [0x00, 0x00, 0xFF, 0x80, 0xFF]) (fun t => t.st = 0x07) ∧
    Answers (.rspRx 0x02 0x04) (answers [[0x00, 0x00, 0xFF, 0x60, 0x5F], []]) (fun t => t.st = 0x0D) ∧
    Answers (.rspRx 0x02 0x03) (withWire firmware) (fun t => t.st = 0x0B) ∧
    Answers (.rspRx 0x02 0x04) (withWire firmware) (fun t => t.st = 0x00) :=
  ⟨⟨_, rfl, by decide⟩, ⟨_, rfl, by decide⟩, ⟨_, rfl, by decide⟩, ⟨_, rfl, by decide⟩, ⟨_, rfl, by decide⟩⟩

/-- Every status code is left by some operation. -/
theorem witness_StatusCodesAreRaisedWhereTabled :
    Leaves (.brev 0xD4) start (fun t => t.st = 0x00) ∧
    Leaves (.hdrParse [0x01, 0x00, 0xFF, 0x06, 0xFA]) start (fun t => t.st = 0x01) ∧
    Leaves .rxHdr (withWire [0x00, 0x00, 0xFF, 0x06, 0xFA]) (fun t => t.st = 0x02) ∧
    Leaves (.pldParse 0x00 [0x01, 0x00]) start (fun t => t.st = 0x03) ∧
    Leaves .rxPld (latched 0x00 [0x00, 0xFF]) (fun t => t.st = 0x04) ∧
    Leaves (.ackMatch (zeros 6)) start (fun t => t.st = 0x05) ∧
    Leaves (.csumChk 0x2B [0xD4, 0x02]) start (fun t => t.st = 0x06) ∧
    Leaves (.rspMatch 0x02 0x04 [0xD5]) start (fun t => t.st = 0x07) ∧
    Leaves (.rspMatch 0x02 0x04 [0xD4, 0x03, 0x32]) start (fun t => t.st = 0x08) ∧
    Leaves (.rspRx 0x03 0x04) (withWire firmware) (fun t => t.st = 0x09) ∧
    Leaves (.rspMatch 0x02 0x04 [0xD5, 0x03]) start (fun t => t.st = 0x0A) ∧
    Leaves (.rspRx 0x02 0x03) (withWire firmware) (fun t => t.st = 0x0B) ∧
    Leaves .rxPld (withWire firmware) (fun t => t.st = 0x0C) ∧
    Leaves (.wireRx 0x01) (withWire []) (fun t => t.st = 0x0D) := by
  refine ⟨?_, ?_, ?_, ?_, ?_, ?_, ?_, ?_, ?_, ?_, ?_, ?_, ?_, ?_⟩ <;> exact ⟨_, rfl, by decide, by decide, by decide⟩

/-- A failing pure operation and a failing stream one. -/
theorem witness_FailureWritesOnlyStatusAndLatch :
    Leaves (.csumChk 0x2B [0xD4, 0x02]) start (fun t => t.st ≠ 0x00) ∧ isStream (.csumChk 0x2B [0xD4, 0x02]) = false ∧
    Leaves .rxHdr (withWire [0x00]) (fun t => t.st ≠ 0x00) ∧ isStream .rxHdr = true :=
  ⟨⟨_, rfl, by decide, by decide, by decide⟩, by decide, ⟨_, rfl, by decide, by decide, by decide⟩, by decide⟩

/-- A broken shape of each kind, one byte from a good one. -/
theorem witness_FaultChangesOnlyTheFaultRegister :
    start.fault = none ∧ Answers (.hdrParse (zeros 4)) start (fun t => t.fault = some (.operand, 0x11)) ∧
    Answers (.pldParse 0x00 (zeros 3)) start (fun t => t.fault = some (.operand, 0x12)) ∧
    Answers (.ackMatch (zeros 7)) start (fun t => t.fault = some (.operand, 0x13)) :=
  ⟨rfl, ⟨_, rfl, by decide⟩, ⟨_, rfl, by decide⟩, ⟨_, rfl, by decide⟩⟩

theorem witness_FaultsExactlyOnBrokenShape :
    start.fault = none ∧ Answers (.hdrParse (zeros 5)) start (fun t => t.fault = none) ∧
    Answers (.hdrParse (zeros 6)) start (fun t => t.fault ≠ none) :=
  ⟨rfl, ⟨_, rfl, by decide⟩, ⟨_, rfl, by decide⟩⟩

theorem witness_PureOperationsTouchNoTransport :
    isStream (.rspMatch 0 0 []) = false ∧ Answers (.rspMatch 0x02 0x04 [0xD5, 0x03, 0x32]) start (fun t => t.st = 0x00) :=
  ⟨by decide, ⟨_, rfl, by decide⟩⟩

/-- A sending operation and a receiving one. -/
theorem witness_StreamOperationsFrame :
    isStream (.wireTx [0x01]) = true ∧ Answers (.wireTx [0x01]) start (fun t => t.txLog = [0x80]) ∧
    opcode (.wireTx [0x01]) ∈ [0x30#8, 0x32#8, 0x36#8] ∧ isStream (.rspRx 0x02 0x04) = true ∧
    Answers (.rspRx 0x02 0x04) (withWire firmware) (fun t => t.st = 0x00) ∧
    opcode (.rspRx 0x02 0x04) ∈ [0x31#8, 0x33#8, 0x34#8, 0x35#8, 0x37#8] :=
  ⟨by decide, ⟨_, rfl, by decide⟩, by decide, by decide, ⟨_, rfl, by decide⟩, by decide⟩

theorem witness_ResultRegistersWrittenWhereTabled :
    Answers (.csumChk 0x2A [0xD4, 0x02]) start (fun t => t.res = start.res) ∧
    opcode (.csumChk 0x2A [0xD4, 0x02]) ∈ [0x03#8, 0x13#8, 0x30#8, 0x35#8] ∧
    Answers .rxHdr (withWire firmware) (fun t => t.res = 0x06) ∧
    opcode .rxHdr ∈ [0x01#8, 0x02#8, 0x03#8, 0x11#8, 0x13#8, 0x30#8, 0x33#8, 0x35#8] :=
  ⟨⟨_, rfl, by decide⟩, by decide, ⟨_, rfl, by decide⟩, by decide⟩

theorem witness_AtMostTwoReadsPerOperation :
    Answers (.rspRx 0x02 0x04) (withWire firmware) (fun t => t.rxLog.length = 2) ∧
    Answers .rxHdr (withWire firmware) (fun t => t.rxLog.length = 1) ∧ Answers .rxPld start (fun t => t.rxLog = []) :=
  ⟨⟨_, rfl, by decide⟩, ⟨_, rfl, by decide⟩, ⟨_, rfl, by decide⟩⟩

theorem witness_LatchSetOnlyBySuccessfulHeader :
    Leaves .rxHdr (withWire firmware) (fun t => t.rxl = some 0x06) ∧
    Leaves .rxHdr (latched 0x06 [0x00]) (fun t => t.rxl = none) ∧
    Leaves (.brev 0x00) (latched 0x06 []) (fun t => t.rxl = some 0x06) ∧
    Leaves (.wireTx []) (latched 0x06 []) (fun t => t.rxl = none) := by
  refine ⟨?_, ?_, ?_, ?_⟩ <;> exact ⟨_, rfl, by decide, by decide, by decide⟩

theorem witness_LatchHiddenFromOtherOperations :
    Instr.rspRx 0x02 0x04 ≠ .rxPld ∧ Answers (.rspRx 0x02 0x04) (latched 0x06 firmware) (fun t => t.st = 0x00) :=
  ⟨by decide, ⟨_, rfl, by decide⟩⟩

theorem witness_StrayAccessBreaksTheSequence :
    Leaves (.wireRx 0x00) (latched 0x06 []) (fun t => t.rxl = none) ∧ isStream (.wireRx 0x00) = true ∧
    ¬ (Instr.wireRx 0x00 = .rxHdr ∧ (0x00 : Byte) = 0x00) ∧
    Leaves (.brev 0x00) (latched 0x06 []) (fun t => Answers .rxPld t (fun u => u.st = 0x0D)) ∧
    isStream (.brev 0x00) = false ∧ (latched 0x06 []).rxl ≠ none :=
  ⟨⟨_, rfl, by decide, by decide, by decide⟩, by decide, by decide, ⟨_, rfl, by decide, by decide, ⟨_, rfl, by decide⟩⟩,
    by decide, by decide⟩

theorem witness_ParametersFixedAndReadWhereNamed :
    (∃ t, step (issuing 0x36 0x02 0 []) = .next t ∧ t.st = 0x00) ∧
    opcode (.rspMatch 0 0 []) ∉ [0x20#8, 0x36#8] ∧ opcode (.cmdBuild 0 []) ∉ [0x21#8, 0x37#8] ∧
    Answers (.rspMatch 0x02 0x04 [0xD5, 0x03]) start (fun t => t.st = 0x0A) ∧
    Answers (.cmdBuild 0x02 []) start (fun t => t.buf = [0xD4, 0x02]) :=
  ⟨⟨_, rfl, by decide⟩, by decide, by decide, ⟨_, rfl, by decide⟩, ⟨_, rfl, by decide⟩⟩

theorem witness_LogsOnlyGrow :
    (∃ t, step (issuing 0x30 0 0 [0x01]) = .next t ∧ t.txLog = [0x80]) ∧
    ∀ rest, (issuing 0x30 0 0 [0x01]).pending ≠ .reset :: rest := ⟨⟨_, rfl, by decide⟩, by simp [issuing]⟩

/-- Idle, a reset, a request that completes and one that faults. -/
theorem witness_PcCountsCompletedRequests :
    (∃ t, step (host []) = .next t ∧ t.pc = 0) ∧ (∃ t, step (host [.reset]) = .next t ∧ t.pc = 0) ∧
    (∃ t, step (issuing 0x01 0 0 []) = .next t ∧ t.pc = 1) ∧ ∃ t, step (issuing 0x00 0 0 []) = .next t ∧ t.pc = 0 :=
  ⟨⟨_, rfl, by decide⟩, ⟨_, rfl, by decide⟩, ⟨_, rfl, by decide⟩, ⟨_, rfl, by decide⟩⟩

theorem witness_EveryStepKeepsTheStateLegal :
    (issuing 0x00 0 0 []).Inv ∧ ∃ t, step (issuing 0x00 0 0 []) = .next t ∧ t.fault = some (.illegalOp, 0x00) :=
  ⟨⟨by decide, by decide, by simp [issuing, start, State.reset], by simp [issuing, start, State.reset]⟩, _, rfl, by decide⟩

/-- A state with a latched length, whose last read is the header that declared it. -/
def afterHeader : State :=
  { issuing 0x01 0 0 [] with rxl := some 0x06, rxLog := [(5, [0x00, 0x00, 0xFF, 0x60, 0x5F])] }

theorem witness_LatchedLengthIsOfTheLastRead :
    afterHeader.LatchIsLastHeader ∧ ∃ t, step afterHeader = .next t ∧ t.rxl = some 0x06 := by
  refine ⟨fun n h => ⟨[], [0x00, 0x00, 0xFF, 0x60, 0x5F], rfl, rfl, ?_⟩, _, rfl, by decide⟩
  obtain rfl : (0x06 : Byte) = n := by simpa [afterHeader] using h
  decide

/-- A watch with the header just read. -/
def fresh : Watch := ⟨.read .header, false, .settled, [], none⟩

/-- A host that reads one frame, header then payload. -/
def readingAFrame : List HostAct :=
  [.waitReady true, .openRead, .issue .rxHdr (good 0x06 []),
    .issue .rxPld (good 0x06 [0xD5, 0x03, 0x32, 0x01, 0x06, 0x07]), .close]

/-- The block that host meets. -/
def beforeTheFrame : State :=
  { withWire firmware with pending := [.request ⟨0x33, 0, 0, []⟩, .request ⟨0x34, 0, 0, []⟩] }

theorem witness_DutifulHostSeesNoSequenceError :
    (Watch.start.dutiful readingAFrame = true ∧ beforeTheFrame.Records readingAFrame ∧
      HostAct.issue .rxHdr (good 0x06 []) ∈ readingAFrame) ∧
    (fresh.Agrees (latched 0x00 (zeros 2)) ∧ Answers .rxPld (latched 0x00 (zeros 2)) (fun t => t.resultPort = good 0x00 []) ∧
      fresh.act (.issue .rxPld (good 0x00 [])) = some ⟨.read .over, false, .settled, [], none⟩) ∧
    (HostAct.close ≠ .reset ∧ (∀ i seen, HostAct.close ≠ .issue i seen) ∧
      fresh.act .close = some ⟨.closed, false, .settled, [], none⟩) ∧
    ((host [.reset]).pending = .reset :: [] ∧ (∃ t, step (host [.reset]) = .next t) ∧
      fresh.act .reset = some ⟨.read .over, false, .settled, [], none⟩) :=
  ⟨⟨by decide, ⟨_, _, _, rfl, rfl, rfl, rfl, by decide, _, _, _, rfl, rfl, rfl, rfl, by decide, trivial⟩, by decide⟩,
    ⟨fun _ => by decide, ⟨_, rfl, by decide⟩, by decide⟩, ⟨by decide, nofun, by decide⟩, ⟨rfl, ⟨_, rfl⟩, by decide⟩⟩

end Sys2Proof.Tests
end

section
/-! PROOF. The two parameters (R28): every operation run with other parameters that agree where it reads them does the
same and leaves those parameters. That a step never changes them is the case of the same parameters. -/

namespace Sys2Proof.Machine

/-- The same state under other parameters. -/
def State.withParams (q : Params) (s : State) : State := { s with params := q }

@[simp] theorem State.withParams_params (q : Params) (s : State) : (s.withParams q).params = q := rfl
@[simp] theorem State.withParams_rxl (q : Params) (s : State) : (s.withParams q).rxl = s.rxl := rfl

/-! The named updates of the state read no parameter; here those that the receive path is made of. -/

@[simp] theorem State.withParams_fail (q : Params) (c : Status) (s : State) :
    (s.withParams q).fail c = (s.fail c).withParams q := rfl
@[simp] theorem State.withParams_rxAnswer (q : Params) (n : Nat) (s : State) :
    (s.withParams q).rxAnswer n = s.rxAnswer n := rfl
@[simp] theorem State.withParams_rxRead (q : Params) (n : Nat) (s : State) :
    (s.withParams q).rxRead n = (s.rxRead n).withParams q := rfl

/-! The shared operations read no parameter but through what they run next. -/

theorem State.withParams_receiving {q : Params} {n : Nat} {s : State} {k : List Byte → State → State}
    (hk : ∀ l, k l ((s.rxRead n).withParams q) = (k l (s.rxRead n)).withParams q) :
    (s.withParams q).receiving n k = (s.receiving n k).withParams q := by
  simp only [State.receiving, withParams_rxAnswer, withParams_rxRead, withParams_fail, hk]
  split <;> rfl

/-- The receive path as the operations that receive begin it, with the latch cleared. -/
theorem State.withParams_clearLatch_receiving {q : Params} {n : Nat} {s : State} {k : List Byte → State → State}
    (hk : ∀ l, k l ((s.clearLatch.rxRead n).withParams q) = (k l (s.clearLatch.rxRead n)).withParams q) :
    (s.withParams q).clearLatch.receiving n k = (s.clearLatch.receiving n k).withParams q :=
  withParams_receiving (s := s.clearLatch) hk

theorem State.withParams_judge {α : Type} {q : Params} {s : State} {r : Except Status α} {k k' : α → State}
    (hk : ∀ x, k' x = (k x).withParams q) : (s.withParams q).judge r k' = (s.judge r k).withParams q := by
  cases r with
  | error c => rfl
  | ok x => exact hk x

theorem State.withParams_shaped {q : Params} {s : State} {i : Instr} {body body' : State}
    (hb : body' = body.withParams q) : (s.withParams q).shaped i body' = (s.shaped i body).withParams q := by
  unfold State.shaped
  cases shapeFault i with
  | none => exact hb
  | some reason => rfl

/-! The two functions of the model that take the parameters read one each. -/

theorem cmdPayload_congr {p q : Params} (h : q.hostToChipDir = p.hostToChipDir) (c : Byte) (l : List Byte) :
    cmdPayload q c l = cmdPayload p c l := by
  simp only [cmdPayload, h]

theorem rspCheck_congr {p q : Params} (h : q.acceptEmptyBody = p.acceptEmptyBody) (l : List Byte) (c : Byte) (m : Nat) :
    rspCheck q l c m = rspCheck p l c m := by
  simp only [rspCheck, h]

/-- The end of RSP_MATCH and RSP_RX: the response check and what a response that passes it leaves. -/
theorem State.withParams_judge_rspCheck {q : Params} {s : State} (h : q.acceptEmptyBody = s.params.acceptEmptyBody)
    (p : List Byte) (a : Byte) (m : Nat) :
    ((s.withParams q).judge (rspCheck (s.withParams q).params p a m) fun body =>
        (((s.withParams q).setBuf body).setRes (lenByte body)).ok) =
      (s.judge (rspCheck s.params p a m) fun body => ((s.setBuf body).setRes (lenByte body)).ok).withParams q := by
  rw [withParams_params, rspCheck_congr h]
  exact withParams_judge fun _ => rfl

theorem State.withParams_rspPayload {q : Params} {s : State} (h : q.acceptEmptyBody = s.params.acceptEmptyBody)
    (n a b : Byte) : (s.withParams q).rspPayload n a b = (s.rspPayload n a b).withParams q := by
  unfold State.rspPayload
  split
  · rfl
  · refine withParams_receiving fun _ => withParams_judge fun p => ?_
    exact withParams_judge_rspCheck (s := s.rxRead (count n + 2)) h p a (count b)

/-- R28, both parameters at once: under parameters that agree with the present ones where the operation may read them,
the operation does the same. -/
theorem exec_withParams (i : Instr) (s : State) (q : Params)
    (hdir : opcode i ∈ [0x20#8, 0x36#8] → q.hostToChipDir = s.params.hostToChipDir)
    (hempty : opcode i ∈ [0x21#8, 0x37#8] → q.acceptEmptyBody = s.params.acceptEmptyBody) :
    ∃ t, exec i s = .next t ∧ exec i (s.withParams q) = .next (t.withParams q) := by
  cases i <;> refine ⟨_, rfl, congrArg Host.Outcome.next ?_⟩
  case brev a => rfl
  case csumGen v => rfl
  case csumChk a v => split <;> rfl
  case wireTx v => rfl
  case frmBuild v => exact State.withParams_shaped rfl
  case txFrame v => exact State.withParams_shaped rfl
  case hdrParse v => exact State.withParams_shaped (State.withParams_judge fun _ => rfl)
  case pldParse a v => exact State.withParams_shaped (State.withParams_judge fun _ => rfl)
  case ackMatch v => exact State.withParams_shaped (State.withParams_judge fun _ => rfl)
  case wireRx a => exact State.withParams_clearLatch_receiving fun _ => rfl
  case rxHdr => exact State.withParams_clearLatch_receiving fun _ => State.withParams_judge fun _ => rfl
  case rxAck => exact State.withParams_clearLatch_receiving fun _ => State.withParams_judge fun _ => rfl
  case rxPld =>
    rw [State.withParams_rxl]
    split
    · rfl
    · exact State.withParams_clearLatch_receiving fun _ => State.withParams_judge fun _ => rfl
  case cmdBuild a v =>
    rw [State.withParams_params, cmdPayload_congr (hdir (by simp [opcode]))]
    exact State.withParams_shaped rfl
  case cmdTx a v =>
    rw [State.withParams_params, cmdPayload_congr (hdir (by simp [opcode]))]
    exact State.withParams_shaped rfl
  case rspMatch a b v =>
    exact State.withParams_shaped (State.withParams_judge_rspCheck (hempty (by simp [opcode])) v a (count b))
  case rspRx a b =>
    have h : q.acceptEmptyBody = s.params.acceptEmptyBody := hempty (by simp [opcode])
    refine State.withParams_clearLatch_receiving fun _ => State.withParams_judge fun n => ?_
    exact State.withParams_rspPayload (s := s.clearLatch.rxRead Config.hdrBytes) h n a b

/-- `exec_withParams` for an operation whose answer is known. -/
theorem exec_withParams_of_next {i : Instr} {s t : State} {q : Params} (h : exec i s = .next t)
    (hdir : opcode i ∈ [0x20#8, 0x36#8] → q.hostToChipDir = s.params.hostToChipDir)
    (hempty : opcode i ∈ [0x21#8, 0x37#8] → q.acceptEmptyBody = s.params.acceptEmptyBody) :
    exec i (s.withParams q) = .next (t.withParams q) := by
  obtain ⟨u, hu, hq⟩ := exec_withParams i s q hdir hempty
  obtain rfl : u = t := Host.Outcome.next.inj (hu.symm.trans h)
  exact hq

/-- No operation changes the parameters: run under the parameters it has, it leaves those. -/
theorem exec_params {i : Instr} {s t : State} (h : exec i s = .next t) : t.params = s.params := by
  have hq : exec i s = .next (t.withParams s.params) := exec_withParams_of_next h (fun _ => rfl) (fun _ => rfl)
  have ht : t = t.withParams s.params := Host.Outcome.next.inj (h.symm.trans hq)
  rw [ht, State.withParams_params]

@[simp] theorem State.complete_params (s : State) : s.complete.params = s.params := by
  cases h : s.fault <;> simp [h]

theorem retire_params {o : Host.Outcome State Fault Refusal} {p : Params} {t : State} (h : retire o = .next t)
    (ho : ∀ u, o = .next u → u.params = p) : t.params = p := by
  cases o with
  | next u => cases h; exact u.complete_params.trans (ho u rfl)
  | fault f => cases h
  | refused r => cases h

/-- No step changes the parameters, a reset and a fault entry included. -/
theorem step_params {s t : State} (h : step s = .next t) : t.params = s.params := by
  unfold step at h
  rcases s.fetch_cases with ⟨-, hf⟩ | ⟨rest, -, hf⟩ | ⟨r, rest, reason, op, -, -, hf⟩ | ⟨r, rest, i, -, -, -, hf⟩ |
    ⟨r, rest, op, -, -, -, hf⟩ | ⟨r, rest, n, -, -, -, hf⟩ <;> rw [hf] at h
  · cases h; rfl
  · cases h; rfl
  · cases h
  · exact retire_params h fun u hu => (exec_params hu :)
  · cases h; rfl
  · cases h

/-- Settles O53: no step changes the parameters, and each is read only where R28 names it. -/
theorem parametersFixedAndReadWhereNamed : Obligations.ParametersFixedAndReadWhereNamed := by
  refine ⟨fun s t => step_params, fun i s t d hi h => ?_, fun i s t e hi h => ?_⟩
  · rw [exec_params h]
    exact exec_withParams_of_next h (fun hr => absurd hr hi) (fun _ => rfl)
  · rw [exec_params h]
    exact exec_withParams_of_next h (fun _ => rfl) (fun hr => absurd hr hi)

end Sys2Proof.Machine
end

section
/-! PROOF. The operands a decoded request gives its operation (R80): encoding the operation gives the request back, cut
down to the fields that the format of its `OP` reads. -/

namespace Sys2Proof

/-- The request with the operand fields that the format does not read left 0 or empty, as `encode` leaves them. -/
def Request.readBy (f : Format) (r : Request) : Request where
  op := r.op
  a := if f.readsA = true then r.a else 0
  b := if f.readsB = true then r.b else 0
  v := if f.readsV = true then r.v else []

theorem Request.readBy_v_length_le (f : Format) (r : Request) : (r.readBy f).v.length ≤ r.v.length := by
  by_cases h : f.readsV = true
  · simp [Request.readBy, h]
  · simp [Request.readBy, h]

/-- The port carries the request of an operation exactly when the operation is well-formed. -/
theorem vFits_encode (i : Instr) : vFits (encode i).v = i.wf := by
  cases i <;> rfl

/-- R80, row by row of the opcode map: `OP` has a format, and that format's operand fields are all the operation keeps of
the request. -/
theorem encode_of_decodeOp {r : Request} {i : Instr} (h : decodeOp r = some i) :
    ∃ f, formatOf r.op = some f ∧ encode i = r.readBy f := by
  obtain ⟨op, a, b, v⟩ := r
  simp only [decodeOp] at h
  split at h <;> cases h <;> exact ⟨_, rfl, rfl⟩

/-- Settles O10: what the port carries is cut down to what the format reads, so the operation it decodes to fits too. -/
theorem decodeReadsTheFormatsOperands : Obligations.DecodeReadsTheFormatsOperands := by
  intro r i h
  obtain ⟨hlen, hop⟩ := (decode_ok_iff r i).mp h
  obtain ⟨f, hf, he⟩ := encode_of_decodeOp hop
  have hwf : i.wf = true := by
    rw [← vFits_encode, he, vFits_iff]
    exact (r.readBy_v_length_le f).trans hlen
  refine ⟨hwf, decodeOp_opcode r i hop, f, hf, ?_⟩
  rw [he]
  exact ⟨rfl, rfl, rfl⟩

end Sys2Proof
end

section
/-! PROOF. The bit adapter's operations (R100 to R103): BREV, WIRE_TX, WIRE_RX. -/

namespace Sys2Proof.Machine

/-- A request the port carries decodes to the operation of its row in the opcode map (R82, R83). -/
theorem decode_of_fits {op a b : Byte} {v : List Byte} {i : Instr} (hv : v.length ≤ 262)
    (hop : decodeOp ⟨op, a, b, v⟩ = some i) : decode ⟨op, a, b, v⟩ = .ok i :=
  (decode_ok_iff _ i).mpr ⟨hv, hop⟩

/-- R100: bit `i` of the reversed byte is bit `7 - i` of the byte. -/
theorem brev_getLsbD (b : Byte) {i : Nat} (hi : i < 8) : (brev b).getLsbD i = b.getLsbD (7 - i) := by
  rw [brev, BitVec.getLsbD_ofBoolListLE]
  interval_cases i <;> rfl

/-- Settles O16: the receive path comes up short or goes on, never both, and the premise says which. -/
theorem wireRxReceivesReversedBytes : Obligations.WireRxReceivesReversedBytes := by
  intro a s
  obtain ⟨t, ht, hcases⟩ := execWireRx_cases a s
  refine ⟨fun b v hv => decode_of_fits hv rfl, fun hshort => ?_, fun hfull => ?_⟩
  · obtain ⟨-, rfl⟩ | ⟨hlen, -⟩ := hcases
    · exact ht
    · omega
  · obtain ⟨hlen, -⟩ | ⟨-, rfl⟩ := hcases
    · omega
    · exact ht

/-- Settles O13: the result is `brev a`, whose bits `brev_getLsbD` gives. -/
theorem brevReversesTheBits : Obligations.BrevReversesTheBits := fun a _ =>
  ⟨fun _ _ hv => decode_of_fits hv rfl, brev a, rfl, fun _ hi => brev_getLsbD a hi⟩

/-- Settles O15: WIRE_TX is the write of the wire form, then the cleared latch, then `ok()`. -/
theorem wireTxSendsReversedBytes : Obligations.WireTxSendsReversedBytes := fun _ _ =>
  ⟨fun _ _ hv => decode_of_fits hv rfl, rfl⟩

end Sys2Proof.Machine
end

section
/-! PROOF. The checksum validator (R110, R111): CSUM_GEN, CSUM_CHK. The model's sum is the library's sum of the bytes. -/

namespace Sys2Proof.Machine

/-- R14's sum, by the library's list sum. -/
theorem byteSum_eq_sum_map_toNat (l : List Byte) : byteSum l = (l.map BitVec.toNat).sum := by
  induction l with
  | nil => rfl
  | cons b l ih => rw [byteSum_cons, ih, List.map_cons, List.sum_cons]

/-- R113: the check passes exactly when the sum with the checksum byte is 0 modulo 256. -/
theorem sumsToZero_iff_sum_mod (l : List Byte) (c : Byte) :
    sumsToZero l c = true ↔ ((l.map BitVec.toNat).sum + c.toNat) % 256 = 0 := by
  rw [sumsToZero, beq_iff_eq, byteSum_eq_sum_map_toNat]

/-- Settles O18: the result is `checksum v`, which is R110's formula over `byteSum v`. -/
theorem csumGenGivesTheInverseOfTheSum : Obligations.CsumGenGivesTheInverseOfTheSum := by
  intro v s
  refine ⟨fun _ _ hv => decode_of_fits hv rfl, ?_⟩
  rw [← byteSum_eq_sum_map_toNat]
  rfl

/-- Settles O19: CSUM_CHK ends in `ok()` or in `fail(E_CSUM)`, as the modular-sum check says. -/
theorem csumChkPassesExactlyOnSumZero : Obligations.CsumChkPassesExactlyOnSumZero := by
  intro a v s
  refine ⟨fun _ hv => decode_of_fits hv rfl, ?_⟩
  obtain ⟨t, ht, ⟨hpass, rfl⟩ | ⟨hfail, rfl⟩⟩ := execCsumChk_cases a v s
  · rw [if_pos ((sumsToZero_iff_sum_mod v a).mp hpass)]
    exact ht
  · rw [if_neg (mt (sumsToZero_iff_sum_mod v a).mpr (Bool.eq_false_iff.mp hfail))]
    exact ht

end Sys2Proof.Machine
end

section
/-! PROOF. The frame assembly family (R120 to R126): FRM_BUILD, CMD_BUILD, TX_FRAME, CMD_TX. Each has one bound on its
operand, and answers with its result up to the bound and with its fault past it. -/

namespace Sys2Proof.Machine

/-- An operation that ends in one of two states, split by a bound on its operand, read as one equation on each side. -/
theorem next_of_bound {o : Host.Outcome State Fault Refusal} {n bound : Nat} {faulted done : State}
    (h : ∃ t, o = .next t ∧ ((bound < n ∧ t = faulted) ∨ (n ≤ bound ∧ t = done))) :
    (n ≤ bound → o = .next done) ∧ (bound < n → o = .next faulted) := by
  obtain ⟨_, rfl, ⟨hlong, rfl⟩ | ⟨hfit, rfl⟩⟩ := h
  · exact ⟨fun hfit => absurd hfit hlong.not_ge, fun _ => rfl⟩
  · exact ⟨fun _ => rfl, fun hlong => absurd hfit hlong.not_ge⟩

/-- R62: LCS of a payload that fits the length field, by the payload's length. -/
theorem checksum_lenByte {p : List Byte} (hp : p.length ≤ 255) :
    checksum [lenByte p] = BitVec.ofNat 8 ((256 - p.length) % 256) := by
  rw [checksum, byteSum_cons, byteSum_nil, lenByte_toNat p hp, Nat.add_zero, Nat.mod_eq_of_lt (Nat.lt_succ_of_le hp)]

/-- R60 to R63: the frame byte by byte, its two checksums by their formulas. -/
theorem frame_eq {p : List Byte} (hp : p.length ≤ 255) :
    frame p =
      [0x00, 0x00, 0xFF, BitVec.ofNat 8 p.length, BitVec.ofNat 8 ((256 - p.length) % 256)] ++ p ++
        [BitVec.ofNat 8 ((256 - (p.map BitVec.toNat).sum % 256) % 256), 0x00] := by
  rw [← checksum_lenByte hp, ← byteSum_eq_sum_map_toNat]
  rfl

/-- Settles O23: FRM_BUILD leaves `frame V` up to 255 bytes, and `frame_eq` gives its bytes. -/
theorem frmBuildAssemblesTheFrame : Obligations.FrmBuildAssemblesTheFrame := by
  intro v s
  obtain ⟨hdone, hfault⟩ := next_of_bound (execFrmBuild_cases v s)
  refine ⟨fun _ _ hv => decode_of_fits hv rfl, fun hfit => ?_, hfault⟩
  rw [← frame_eq hfit]
  exact hdone hfit

/-- Settles O24: the Command Payload is `V` with two bytes in front. -/
theorem cmdBuildPrependsDirectionAndCode : Obligations.CmdBuildPrependsDirectionAndCode := fun a v s =>
  ⟨fun _ hv => decode_of_fits hv rfl, next_of_bound (execCmdBuild_cases a v s)⟩

/-- Settles O25: TX_FRAME is `sendFrame` of `V` up to 255 bytes. -/
theorem txFrameSendsTheFrame : Obligations.TxFrameSendsTheFrame := fun v s =>
  ⟨fun _ _ hv => decode_of_fits hv rfl, next_of_bound (execTxFrame_cases v s)⟩

/-- Settles O26: CMD_TX is `sendFrame` of the Command Payload up to 253 parameters. -/
theorem cmdTxSendsTheCommandFrame : Obligations.CmdTxSendsTheCommandFrame := fun a v s =>
  ⟨fun _ hv => decode_of_fits hv rfl, next_of_bound (execCmdTx_cases a v s)⟩

end Sys2Proof.Machine
end

section
/-! PROOF. The round trip of a frame (R125): the two halves of a frame pass the header and payload checks, so each parsing
operation succeeds on them, in the request's operand and off the wire. -/

namespace Sys2Proof.Machine

/-- R203: a check that passes lets the operation go on. -/
theorem State.judge_of_ok {α : Type} {s : State} {r : Except Status α} {x : α} {k : α → State} (h : r = .ok x) :
    s.judge r k = k x := by
  rw [h, State.judge]

/-- R83: an operand of the required shape lets the operation run. -/
theorem State.shaped_of_none {s body : State} {i : Instr} (h : shapeFault i = none) : s.shaped i body = body := by
  rw [State.shaped, h]

/-- R105: a read answered with the wire form of as many bytes as it asks for goes on with those bytes. -/
theorem State.receiving_of_toWire {n : Nat} {s : State} {k : List Byte → State → State} {l : List Byte}
    (ha : s.rxAnswer n = toWire l) (hl : l.length = n) : s.receiving n k = k l (s.rxRead n) := by
  rw [State.receiving, ha, toWire_length, if_neg hl.not_lt, fromWire_toWire]

/-- R140: HDR_PARSE of a header that passes the check. -/
theorem exec_hdrParse_of_ok {s : State} {h : List Byte} {n : Byte} (hl : h.length = 5) (hc : hdrCheck h = .ok n) :
    exec (.hdrParse h) s = .next (s.setRes n).ok :=
  congrArg Host.Outcome.next ((State.shaped_of_none (i := .hdrParse h) (if_pos hl)).trans (State.judge_of_ok hc))

/-- R142: PLD_PARSE of a payload that passes the check. -/
theorem exec_pldParse_of_ok {s : State} {a : Byte} {t p : List Byte} (hl : t.length = a.toNat + 2)
    (hc : pldCheck a.toNat t = .ok p) : exec (.pldParse a t) s = .next ((s.setBuf p).setRes a).ok :=
  congrArg Host.Outcome.next ((State.shaped_of_none (i := .pldParse a t) (if_pos hl)).trans (State.judge_of_ok hc))

/-- R153: RX_HDR where the transport returns the wire form of a header that passes the check. -/
theorem exec_rxHdr_of_ok {s : State} {h : List Byte} {n : Byte} (ha : s.rxAnswer 5 = toWire h) (hl : h.length = 5)
    (hc : hdrCheck h = .ok n) : exec .rxHdr s = .next (((s.rxRead 5).latch n).setRes n).ok :=
  congrArg Host.Outcome.next
    ((State.receiving_of_toWire (s := s.clearLatch) ha hl).trans (State.judge_of_ok hc))

/-- R154: RX_PLD where a length is latched and the transport returns the wire form of a payload that passes the check. -/
theorem exec_rxPld_of_ok {s : State} {n : Byte} {t p : List Byte} (hr : s.rxl = some n)
    (ha : s.rxAnswer (n.toNat + 2) = toWire t) (hl : t.length = n.toNat + 2) (hc : pldCheck n.toNat t = .ok p) :
    exec .rxPld s = .next ((((s.rxRead (n.toNat + 2)).clearLatch).setBuf p).setRes n).ok := by
  simp only [exec, execRxPld, hr]
  exact congrArg Host.Outcome.next
    ((State.receiving_of_toWire (s := s.clearLatch) ha hl).trans (State.judge_of_ok hc))

theorem frame_take_five (p : List Byte) :
    (frame p).take 5 = [0x00, 0x00, 0xFF, lenByte p, checksum [lenByte p]] := rfl

theorem frame_drop_five (p : List Byte) : (frame p).drop 5 = p ++ [checksum p, 0x00] := rfl

/-- The first five bytes of a frame are a valid header that declares the payload's length. -/
theorem hdrCheck_frame (p : List Byte) : hdrCheck ((frame p).take 5) = .ok (lenByte p) := by
  have hlcs := sumsToZero_checksum [lenByte p]
  simp only [sumsToZero, byteSum_cons, byteSum_nil, Nat.add_zero, beq_iff_eq] at hlcs
  rw [frame_take_five, hdrCheck_eq, if_neg (by decide), if_pos hlcs]

/-- The bytes after a frame's header are a valid payload, checksum and postamble, and carry the payload. -/
theorem pldCheck_frame (p : List Byte) : pldCheck p.length ((frame p).drop 5) = .ok p := by
  have hdcs := sumsToZero_checksum p
  rw [sumsToZero, beq_iff_eq] at hdcs
  rw [frame_drop_five, pldCheck_eq, if_pos hdcs, if_pos rfl]

/-- Settles O38: the two halves of the frame pass their checks, and the reads of RX_HDR and RX_PLD return exactly those
halves, in wire form. -/
theorem frameRoundTrip : Obligations.FrameRoundTrip := by
  intro p s hp
  obtain ⟨hbuild, -⟩ := next_of_bound (execFrmBuild_cases p s)
  obtain ⟨hsend, -⟩ := next_of_bound (execTxFrame_cases p s)
  have hn : (lenByte p).toNat = p.length := lenByte_toNat p hp
  have hlen : ((frame p).drop 5).length = (lenByte p).toNat + 2 := by
    rw [hn, List.length_drop, frame_length, Nat.add_sub_assoc (by decide)]
  have hpld : pldCheck (lenByte p).toNat ((frame p).drop 5) = .ok p := hn ▸ pldCheck_frame p
  refine ⟨⟨_, hbuild hp, rfl⟩, ⟨_, hsend hp, rfl⟩, exec_hdrParse_of_ok rfl (hdrCheck_frame p),
    exec_pldParse_of_ok hlen hpld, fun hfirst hsecond => ?_⟩
  have hrxHdr := exec_rxHdr_of_ok (hfirst.trans List.map_take.symm) rfl (hdrCheck_frame p)
  rw [← hn] at hsecond
  have hrxPld := exec_rxPld_of_ok (s := (((s.rxRead 5).latch (lenByte p)).setRes (lenByte p)).ok) rfl
    (hsecond.trans List.map_drop.symm) hlen hpld
  exact ⟨_, _, hrxHdr, rfl, rfl, hrxPld, rfl, rfl, rfl⟩

end Sys2Proof.Machine
end

section
/-! PROOF. The frame parsing family (R140 to R155): HDR_PARSE, PLD_PARSE, ACK_MATCH on the request's operand, RX_HDR,
RX_PLD, RX_ACK on what a read returns. Each pair shares one check, and ends as `judge` of that check says. -/

namespace Sys2Proof.Machine

/-- R83: an operand of any other shape than the required one faults. -/
theorem State.shaped_of_some {s body : State} {i : Instr} {reason : FaultReason} (h : shapeFault i = some reason) :
    s.shaped i body = s.raiseFault reason (opcode i) := by
  rw [State.shaped, h]

/-- R103: a read that comes up short fails, whatever was to be done with the bytes. -/
theorem State.receiving_of_short {n : Nat} {s : State} {k : List Byte → State → State}
    (h : (s.rxAnswer n).length < n) : s.receiving n k = (s.rxRead n).fail .eShortRead :=
  if_pos h

/-- R105: a read answered in full goes on with the logical form `l` of the answer. -/
theorem State.receiving_of_fromWire {n : Nat} {s : State} {k : List Byte → State → State} {l : List Byte}
    (h : fromWire (s.rxAnswer n) = l) (hl : l.length = n) : s.receiving n k = k l (s.rxRead n) := by
  have hfull : (s.rxAnswer n).length = n := by rw [← fromWire_length, h, hl]
  rw [State.receiving, if_neg hfull.not_lt, h]

/-! How an operation goes on from each check, in the order of R203. -/

/-- R141: start bytes, then the length-checksum. -/
theorem State.judge_hdrCheck (s : State) (p q r len lcs : Byte) (k : Byte → State) :
    s.judge (hdrCheck [p, q, r, len, lcs]) k =
      if p ≠ 0x00 ∨ q ≠ 0x00 ∨ r ≠ 0xFF then s.fail .eStart
      else if (len.toNat + lcs.toNat) % 256 ≠ 0 then s.fail .eLcs
      else k len := by
  rw [hdrCheck_eq, ite_not]
  split
  · rfl
  · split <;> rfl

/-- R143: the payload-checksum, then the postamble. -/
theorem State.judge_pldCheck (s : State) {n : Nat} {p : List Byte} (hp : p.length = n) (dcs post : Byte)
    (k : List Byte → State) :
    s.judge (pldCheck n (p ++ [dcs, post])) k =
      if ((p.map BitVec.toNat).sum + dcs.toNat) % 256 ≠ 0 then s.fail .eDcs
      else if post ≠ 0x00 then s.fail .ePost
      else k p := by
  rw [← hp, pldCheck_eq, byteSum_eq_sum_map_toNat, ite_not, ite_not]
  split
  · split <;> rfl
  · rfl

/-- R146: the exact compare, for the two operations that write `ST` alone. -/
theorem State.judge_ackCheck (s : State) (a : List Byte) :
    (s.judge (ackCheck a) fun _ => s.ok) =
      { s with st := if a = [0x00, 0x00, 0xFF, 0x00, 0xFF, 0x00] then 0x00 else 0x05 } := by
  rw [ackCheck, Config.ackPattern]
  split <;> rfl

/-- Settles O28: five bytes have the shape and are judged, any other number faults. -/
theorem hdrParseJudgesTheHeader : Obligations.HdrParseJudgesTheHeader := fun s =>
  ⟨fun _ _ _ hv => decode_of_fits hv rfl,
    fun p q r len lcs => congrArg Host.Outcome.next
      ((State.shaped_of_none (i := .hdrParse [p, q, r, len, lcs]) rfl).trans (s.judge_hdrCheck p q r len lcs _)),
    fun v hv => congrArg Host.Outcome.next (State.shaped_of_some (i := .hdrParse v) (if_neg hv))⟩

/-- Settles O29: payload, DCS and postamble are the `A + 2` bytes of the shape; any other number of bytes faults. -/
theorem pldParseJudgesThePayload : Obligations.PldParseJudgesThePayload := by
  refine fun a s => ⟨fun _ _ hv => decode_of_fits hv rfl, fun p dcs post hp => ?_, fun v hv => ?_⟩
  · have hshape : shapeFault (.pldParse a (p ++ [dcs, post])) = none := if_pos (by simp [hp, count])
    exact congrArg Host.Outcome.next ((State.shaped_of_none hshape).trans (s.judge_pldCheck hp dcs post _))
  · exact congrArg Host.Outcome.next (State.shaped_of_some (i := .pldParse a v) (if_neg hv))

/-- Settles O30: six bytes have the shape and are compared, any other number faults. -/
theorem ackMatchComparesExactly : Obligations.AckMatchComparesExactly := fun v s =>
  ⟨fun _ _ hv => decode_of_fits hv rfl,
    fun hv => congrArg Host.Outcome.next
      ((State.shaped_of_none (i := .ackMatch v) (if_pos hv)).trans (s.judge_ackCheck v)),
    fun hv => congrArg Host.Outcome.next (State.shaped_of_some (i := .ackMatch v) (if_neg hv))⟩

/-- Settles O31: the latch is cleared, the read comes up short or returns a header, and the header is judged. -/
theorem rxHdrPeeksTheHeader : Obligations.RxHdrPeeksTheHeader := by
  refine fun s => ⟨fun _ _ _ hv => decode_of_fits hv rfl, fun hshort => ?_, fun p q r len lcs hread => ?_⟩
  · exact congrArg Host.Outcome.next (State.receiving_of_short (s := s.clearLatch) hshort)
  · exact congrArg Host.Outcome.next
      ((State.receiving_of_fromWire (s := s.clearLatch) hread rfl).trans (State.judge_hdrCheck _ p q r len lcs _))

/-- R154: with no length latched, RX_PLD fails and reads nothing. -/
theorem exec_rxPld_of_unlatched {s : State} (h : s.rxl = none) : exec .rxPld s = .next (s.fail .eSeq) := by
  simp only [exec, execRxPld, h]

/-- R154: with a length latched, RX_PLD clears the latch, reads two bytes more than that length and judges them. -/
theorem exec_rxPld_of_latched {s : State} {n : Byte} (h : s.rxl = some n) :
    exec .rxPld s = .next (s.clearLatch.receiving (n.toNat + 2) fun t s1 =>
      s1.judge (pldCheck n.toNat t) fun p => ((s1.setBuf p).setRes n).ok) := by
  simp only [exec, execRxPld, h, count]

/-- Settles O32: the latch says whether anything is read, and how much. -/
theorem rxPldReadsTheLatchedLength : Obligations.RxPldReadsTheLatchedLength := by
  refine fun s => ⟨fun _ _ _ hv => decode_of_fits hv rfl, exec_rxPld_of_unlatched, fun n hn => ?_⟩
  rw [exec_rxPld_of_latched hn]
  refine ⟨fun hshort => ?_, fun p dcs post hp hread => ?_⟩
  · exact congrArg Host.Outcome.next (State.receiving_of_short (s := s.clearLatch) hshort)
  · have hlen : (p ++ [dcs, post]).length = n.toNat + 2 := by simp [hp]
    exact congrArg Host.Outcome.next
      ((State.receiving_of_fromWire (s := s.clearLatch) hread hlen).trans (State.judge_pldCheck _ hp dcs post _))

/-- Settles O33: the latch is cleared, the read comes up short or returns six bytes, and they are compared. -/
theorem rxAckComparesExactly : Obligations.RxAckComparesExactly := by
  refine fun s => ⟨fun _ _ _ hv => decode_of_fits hv rfl, fun hshort => ?_, fun hfull => ?_⟩
  · exact congrArg Host.Outcome.next (State.receiving_of_short (s := s.clearLatch) hshort)
  · have hlen : (fromWire (s.rxAnswer 6)).length = 6 := (fromWire_length _).trans hfull
    exact congrArg Host.Outcome.next
      ((State.receiving_of_fromWire (s := s.clearLatch) rfl hlen).trans (State.judge_ackCheck _ _))

end Sys2Proof.Machine
end

section
/-! PROOF. The response envelope (R170 to R172): RSP_MATCH on the request's operand, RSP_RX on what two reads return.
Both end in one response check, and RSP_RX comes to it through the header and payload checks of the frame parsing
family. -/

namespace Sys2Proof.Machine

/-- R172: a response without both a direction byte and an echo is too short. -/
theorem rspCheck_of_short (cfg : Params) {p : List Byte} (hp : p.length < 2) (c : Byte) (m : Nat) :
    rspCheck cfg p c m = .error .eShortLen :=
  if_pos hp

/-- R172: direction, echo, empty body, capacity, for a response that is long enough. -/
theorem State.judge_rspCheck (s : State) (cfg : Params) (dir echo : Byte) (body : List Byte) (c : Byte) (m : Nat)
    (k : List Byte → State) :
    s.judge (rspCheck cfg (dir :: echo :: body) c m) k =
      if dir ≠ 0xD5 then s.fail .eDir
      else if echo.toNat ≠ (c.toNat + 1) % 256 then s.fail .eCmd
      else if body = [] ∧ cfg.acceptEmptyBody = false then s.fail .eBodyEmpty
      else if body.length > m then s.fail .eBodyOvf
      else k body := by
  rw [rspCheck_eq]
  split_ifs <;> rfl

/-- R170: RSP_MATCH of an operand within the bound is the response check and what follows it. -/
theorem exec_rspMatch_of_fits {a b : Byte} {v : List Byte} {s : State} (hv : v.length ≤ 255) :
    exec (.rspMatch a b v) s = .next (s.judge (rspCheck s.params v a b.toNat) fun body =>
      ((s.setBuf body).setRes (lenByte body)).ok) :=
  congrArg Host.Outcome.next (State.shaped_of_none (i := .rspMatch a b v) (if_pos hv))

/-- Settles O35: up to 255 bytes the response is judged, too short or with direction and echo in front of its body;
past that the shape is broken. -/
theorem rspMatchCorrelatesTheResponse : Obligations.RspMatchCorrelatesTheResponse := by
  refine fun a b s => ⟨fun _ hv => decode_of_fits hv rfl, fun v hv => ?_, fun dir echo body hbody => ?_, fun v hv => ?_⟩
  · rw [exec_rspMatch_of_fits (by omega), rspCheck_of_short s.params hv]
    rfl
  · have hlen : (dir :: echo :: body).length ≤ 255 := Nat.add_le_add_right hbody 2
    rw [exec_rspMatch_of_fits hlen, State.judge_rspCheck]
    rfl
  · exact congrArg Host.Outcome.next (State.shaped_of_some (i := .rspMatch a b v) (if_neg hv.not_ge))

/-! RSP_RX stage by stage (R171). -/

/-- A header read in full is judged; what follows a valid one is the second half of the operation. -/
theorem exec_rspRx_of_header {a b p q r len lcs : Byte} {s : State}
    (hread : fromWire (s.rxAnswer 5) = [p, q, r, len, lcs]) :
    exec (.rspRx a b) s = .next
      (if p ≠ 0x00 ∨ q ≠ 0x00 ∨ r ≠ 0xFF then (s.rxRead 5).clearLatch.fail .eStart
      else if (len.toNat + lcs.toNat) % 256 ≠ 0 then (s.rxRead 5).clearLatch.fail .eLcs
      else (s.rxRead 5).clearLatch.rspPayload len a b) :=
  congrArg Host.Outcome.next
    ((State.receiving_of_fromWire (s := s.clearLatch) hread rfl).trans (State.judge_hdrCheck _ p q r len lcs _))

/-- A declared length below 2 is rejected, and no payload byte is read. -/
theorem State.rspPayload_of_lt_two {n : Byte} (hn : n.toNat < 2) (a b : Byte) (s : State) :
    s.rspPayload n a b = s.fail .eShortLen :=
  if_pos hn

/-- For any other declared length, that many bytes and two more are read and judged. -/
theorem State.rspPayload_of_two_le {n : Byte} (hn : 2 ≤ n.toNat) (a b : Byte) (s : State) :
    s.rspPayload n a b = s.receiving (n.toNat + 2) fun t s2 =>
      s2.judge (pldCheck n.toNat t) fun p =>
        s2.judge (rspCheck s2.params p a b.toNat) fun body => ((s2.setBuf body).setRes (lenByte body)).ok :=
  if_neg hn.not_gt

/-- A payload read in full is judged: its checksum, its postamble, then as a response. -/
theorem State.rspPayload_of_read {n a b dir echo dcs post : Byte} {body : List Byte} {s : State}
    (hbody : body.length + 2 = n.toNat)
    (hread : fromWire (s.rxAnswer (n.toNat + 2)) = dir :: echo :: (body ++ [dcs, post])) :
    s.rspPayload n a b =
      if (dir.toNat + echo.toNat + (body.map BitVec.toNat).sum + dcs.toNat) % 256 ≠ 0 then
        (s.rxRead (n.toNat + 2)).fail .eDcs
      else if post ≠ 0x00 then (s.rxRead (n.toNat + 2)).fail .ePost
      else (s.rxRead (n.toNat + 2)).judge (rspCheck s.params (dir :: echo :: body) a b.toNat) fun l =>
        (((s.rxRead (n.toNat + 2)).setBuf l).setRes (lenByte l)).ok := by
  have hlen : (dir :: echo :: (body ++ [dcs, post])).length = n.toNat + 2 := by simp [hbody]
  have hsum : ((dir :: echo :: body).map BitVec.toNat).sum = dir.toNat + echo.toNat + (body.map BitVec.toNat).sum := by
    simp [Nat.add_assoc]
  rw [rspPayload_of_two_le (hbody ▸ Nat.le_add_left 2 _), receiving_of_fromWire hread hlen, ← hsum]
  exact judge_pldCheck _ (p := dir :: echo :: body) hbody dcs post _

/-- Settles O36: each stage ends the operation or hands on to the next, and the premises say which. -/
theorem rspRxReceivesOneResponse : Obligations.RspRxReceivesOneResponse := by
  refine fun a b s => ⟨fun _ hv => decode_of_fits hv rfl, fun hshort => ?_, fun p q r len lcs hhdr => ?_⟩
  · exact congrArg Host.Outcome.next (State.receiving_of_short (s := s.clearLatch) hshort)
  rw [exec_rspRx_of_header hhdr]
  refine ⟨fun hstart => by rw [if_pos hstart]; rfl, fun hp hq hr => ?_⟩
  rw [if_neg (by simp [hp, hq, hr])]
  refine ⟨fun hlcs => by rw [if_pos hlcs]; rfl, fun hlcs => ?_⟩
  rw [if_neg (not_not_intro hlcs)]
  refine ⟨fun hlow => congrArg Host.Outcome.next (State.rspPayload_of_lt_two hlow a b _),
    fun hlen => ⟨fun hshort => ?_, fun dir echo body dcs post hbody hpld => ?_⟩⟩
  · rw [State.rspPayload_of_two_le hlen]
    exact congrArg Host.Outcome.next (State.receiving_of_short (s := (s.rxRead 5).clearLatch) hshort)
  · rw [State.rspPayload_of_read (s := (s.rxRead 5).clearLatch) hbody hpld, State.judge_rspCheck]
    rfl

end Sys2Proof.Machine
end

section
/-! PROOF. The reset state against the reset table (R230). -/

namespace Sys2Proof.Machine

/-- Settles O1: the reset state is a literal record, and each entry of R230's table is the field written in it. -/
theorem resetLeavesTheTabledValues : Obligations.ResetLeavesTheTabledValues :=
  ⟨rfl, rfl, rfl, rfl, rfl, rfl, rfl, rfl⟩

end Sys2Proof.Machine
end

section
/-! PROOF. The opcode map both ways (R82 to R84): which `OP` has a row, that encoding then decoding is the identity, and
that decoding looks at nothing but the fields of the request's format. -/

namespace Sys2Proof

/-- The request of an operation lies in the operation's own row of the opcode map. -/
theorem decodeOp_encode (i : Instr) : decodeOp (encode i) = some i := by
  cases i <;> rfl

/-- Settles O9: the operation's row gives it back, and being well-formed is that the port carries its request. -/
theorem decodeEncodeRoundTrip : Obligations.DecodeEncodeRoundTrip := by
  intro i hwf
  rw [← vFits_encode, vFits_iff] at hwf
  exact (decode_ok_iff _ i).mpr ⟨hwf, decodeOp_encode i⟩

/-- R84: whether a request lies in a row of the opcode map depends on its `OP` alone. -/
theorem isSome_decodeOp (r : Request) : (decodeOp r).isSome = assigned r.op := by
  obtain ⟨op, a, b, v⟩ := r
  simp only [assigned, decodeOp]
  split <;> rfl

theorem decodeOp_eq_none_iff (r : Request) : decodeOp r = none ↔ assigned r.op = false := by
  rw [← isSome_decodeOp, Option.isSome_eq_false_iff, Option.isNone_iff_eq_none]

/-- R84: the ranges of `OP` without a row, by the numbers. -/
theorem assigned_eq_false_iff : ∀ op : Byte, assigned op = false ↔
    (op.toNat = 0x00 ∨ (0x04 ≤ op.toNat ∧ op.toNat ≤ 0x0F) ∨ (0x14 ≤ op.toNat ∧ op.toNat ≤ 0x1F) ∨
      (0x22 ≤ op.toNat ∧ op.toNat ≤ 0x2F) ∨ 0x38 ≤ op.toNat) := by
  decide

/-- A request the port carries decodes exactly when its `OP` has a row. -/
theorem exists_decode_ok_iff {r : Request} (hv : r.v.length ≤ 262) :
    (∃ i, decode r = .ok i) ↔ assigned r.op = true := by
  simp only [decode_ok_iff, hv, true_and, ← isSome_decodeOp, Option.isSome_iff_exists]

/-- R84: a request the port carries whose `OP` has no row is rejected by that `OP`. -/
theorem decode_of_unassigned {r : Request} (hv : r.v.length ≤ 262) (h : assigned r.op = false) :
    decode r = .error (.illegalOp r.op) := by
  rw [decode, if_pos ((vFits_iff r.v).mpr hv), (decodeOp_eq_none_iff r).mpr h]

/-- R80: cutting a request down to what its format reads does not move it in the opcode map. -/
theorem decodeOp_readBy {r : Request} {f : Format} (hf : formatOf r.op = some f) :
    decodeOp (r.readBy f) = decodeOp r := by
  cases hop : decodeOp r with
  | none => exact (decodeOp_eq_none_iff (r.readBy f)).mpr ((decodeOp_eq_none_iff r).mp hop)
  | some i =>
    obtain ⟨g, hg, he⟩ := encode_of_decodeOp hop
    obtain rfl : g = f := Option.some.inj (hg.symm.trans hf)
    rw [← he, decodeOp_encode]

/-- Requests that agree on `OP` and on what its format reads are the same once cut down to that. -/
theorem Request.readBy_congr {r q : Request} {f : Format} (hop : r.op = q.op) (ha : f.readsA = true → r.a = q.a)
    (hb : f.readsB = true → r.b = q.b) (hv : f.readsV = true → r.v = q.v) : r.readBy f = q.readBy f := by
  rw [Request.readBy, Request.readBy, hop, ite_congr rfl ha fun _ => rfl, ite_congr rfl hb fun _ => rfl,
    ite_congr rfl hv fun _ => rfl]

/-- Settles O11: both requests, cut down to what the format reads, are one request. -/
theorem unreadOperandsAreIgnored : Obligations.UnreadOperandsAreIgnored := by
  intro r q f hop hf ha hb hv hr hq
  have hrow : decodeOp r = decodeOp q := calc
    decodeOp r = decodeOp (r.readBy f) := (decodeOp_readBy hf).symm
    _ = decodeOp (q.readBy f) := by rw [Request.readBy_congr hop ha hb hv]
    _ = decodeOp q := decodeOp_readBy (hop ▸ hf)
  rw [decode, decode, if_pos ((vFits_iff r.v).mpr hr), if_pos ((vFits_iff q.v).mpr hq), hrow, hop]

/-- Settles O12: each request lies in the row its `OP` names. -/
theorem opcodeMapSamplesDecode : Obligations.OpcodeMapSamplesDecode := by
  unfold Obligations.OpcodeMapSamplesDecode
  decide

end Sys2Proof
end

section
/-! PROOF. What an operation can do, said once for all of them: it faults on a broken shape, changing `FAULT` alone, or it
completes in one of six ways (R31, R203 to R206). The rules about every operation are then read off these ways. -/

namespace Sys2Proof.Machine

/-- What an operation does with the transport: nothing, one write, or reads (R40, R82). -/
inductive Kind where
  | pure | sending | receiving

/-- The kind of each row of the opcode map. -/
def kindOf : Instr → Kind
  | .brev _ => .pure
  | .csumGen _ => .pure
  | .csumChk _ _ => .pure
  | .frmBuild _ => .pure
  | .hdrParse _ => .pure
  | .pldParse _ _ => .pure
  | .ackMatch _ => .pure
  | .cmdBuild _ _ => .pure
  | .rspMatch _ _ _ => .pure
  | .wireTx _ => .sending
  | .wireRx _ => .receiving
  | .txFrame _ => .sending
  | .rxHdr => .receiving
  | .rxPld => .receiving
  | .rxAck => .receiving
  | .cmdTx _ _ => .sending
  | .rspRx _ _ => .receiving

@[simp] theorem kindOf_rxHdr : kindOf .rxHdr = .receiving := rfl

theorem isStream_eq_false_iff (i : Instr) : isStream i = false ↔ kindOf i = .pure := by
  cases i <;> simp [isStream, opcode, kindOf]

theorem opcode_sending_iff (i : Instr) : opcode i ∈ [0x30#8, 0x32#8, 0x36#8] ↔ kindOf i = .sending := by
  cases i <;> simp [opcode, kindOf]

theorem opcode_receiving_iff (i : Instr) :
    opcode i ∈ [0x31#8, 0x33#8, 0x34#8, 0x35#8, 0x37#8] ↔ kindOf i = .receiving := by
  cases i <;> simp [opcode, kindOf]

/-- R82: an operation that receives has no required shape. -/
theorem shapeFault_of_receiving {i : Instr} (h : kindOf i = .receiving) : shapeFault i = none := by
  cases i <;> simp_all [kindOf, shapeFault]

/-- The "raised by" column of R200, by opcode. -/
def Status.raisedBy (c : Status) (op : Byte) : Prop :=
  match c with
  | .ok => False
  | .eStart | .eLcs => op ∈ [0x11#8, 0x33#8, 0x37#8]
  | .eDcs | .ePost => op ∈ [0x12#8, 0x34#8, 0x37#8]
  | .eAck => op ∈ [0x13#8, 0x35#8]
  | .eCsum => op = 0x03#8
  | .eShortLen | .eDir | .eCmd | .eBodyEmpty | .eBodyOvf => op ∈ [0x21#8, 0x37#8]
  | .eSeq => op = 0x34#8
  | .eShortRead => op ∈ [0x31#8, 0x33#8, 0x34#8, 0x35#8, 0x37#8]

/-- The operation may fail with this code: it stands in the code's column, and E_BODY_EMPTY only where the empty body is
not accepted (R172). -/
structure State.MayFail (s : State) (i : Instr) (c : Status) : Prop where
  raised : c.raisedBy (opcode i)
  empty : c = .eBodyEmpty → s.params.acceptEmptyBody = false

/-- The operation may succeed leaving this `RES` and `BUF`: a register R31 gives it no write to stays, and what is written
to `BUF` fits it (R23). -/
structure State.MayLeave (s : State) (i : Instr) (r : Byte) (l : List Byte) : Prop where
  keeps_res : opcode i ∈ [0x03#8, 0x13#8, 0x30#8, 0x35#8] → r = s.res
  keeps_buf : opcode i ∈ [0x01#8, 0x02#8, 0x03#8, 0x11#8, 0x13#8, 0x30#8, 0x33#8, 0x35#8] → l = s.buf
  fits : l = s.buf ∨ l.length ≤ 262

/-- The state after reads of these sizes, first to last. -/
def State.rxReads (ns : List Nat) (s : State) : State := ns.foldl (fun u n => u.rxRead n) s

/-- The reads a receiving operation may make (R45): none only in RX_PLD, two only in RSP_RX and after a valid header. -/
inductive State.MayRead (s : State) (i : Instr) : List Nat → Prop
  | nothing (hi : i = .rxPld) : MayRead s i []
  | once {n : Nat} (hn : n ≤ 257) : MayRead s i [n]
  | twice {a b n : Byte} (hi : i = .rspRx a b) (hread : (s.rxAnswer 5).length = 5)
      (hhdr : hdrCheck (fromWire (s.rxAnswer 5)) = .ok n) (hn : 2 ≤ n.toNat) : MayRead s i [5, n.toNat + 2]

/-- The ways an operation completes. -/
inductive Completes (i : Instr) (s : State) : State → Prop
  | failed {c : Status} (hk : kindOf i = .pure) (hc : s.MayFail i c) : Completes i s (s.fail c)
  | done {r : Byte} {l : List Byte} (hk : kindOf i = .pure) (hl : s.MayLeave i r l) :
      Completes i s ((s.setBuf l).setRes r).ok
  | sent {w : List Byte} {r : Byte} {l : List Byte} (hk : kindOf i = .sending) (hl : s.MayLeave i r l) :
      Completes i s ((((s.txWrite w).clearLatch).setBuf l).setRes r).ok
  | receptionFailed {ns : List Nat} {c : Status} (hk : kindOf i = .receiving) (hn : s.MayRead i ns) (hc : s.MayFail i c) :
      Completes i s ((s.rxReads ns).clearLatch.fail c)
  | received {ns : List Nat} {r : Byte} {l : List Byte} (hk : kindOf i = .receiving) (hi : i ≠ .rxHdr)
      (hn : s.MayRead i ns) (hl : s.MayLeave i r l) :
      Completes i s ((((s.rxReads ns).clearLatch).setBuf l).setRes r).ok
  | latched {n : Byte} (hi : i = .rxHdr) (hread : (s.rxAnswer 5).length = 5)
      (hhdr : hdrCheck (fromWire (s.rxAnswer 5)) = .ok n) : Completes i s (((s.rxRead 5).latch n).setRes n).ok

/-! Each operation completes in one of these ways, by its own list of end states. -/

theorem State.clearLatch_of_none {s : State} (h : s.rxl = none) : s.clearLatch = s := by
  cases s
  cases h
  rfl

theorem mayFail_of_hdrCheck {s : State} {i : Instr} {c : Status} (hi : opcode i ∈ [0x11#8, 0x33#8, 0x37#8])
    (hc : c = .eStart ∨ c = .eLcs) : s.MayFail i c := by
  obtain rfl | rfl := hc <;> exact ⟨hi, nofun⟩

theorem mayFail_of_pldCheck {s : State} {i : Instr} {c : Status} (hi : opcode i ∈ [0x12#8, 0x34#8, 0x37#8])
    (hc : c = .eDcs ∨ c = .ePost) : s.MayFail i c := by
  obtain rfl | rfl := hc <;> exact ⟨hi, nofun⟩

theorem mayFail_of_rspCheck {s : State} {i : Instr} {p : List Byte} {a : Byte} {m : Nat} {c : Status}
    (hi : opcode i ∈ [0x21#8, 0x37#8]) (h : rspCheck s.params p a m = .error c) : s.MayFail i c := by
  rcases rspCheck_cases s.params p a m with he | he | he | ⟨he, hempty⟩ | he | ⟨he, -, -⟩ <;> cases he.symm.trans h
  case inr.inr.inr.inl => exact ⟨hi, fun _ => hempty⟩
  all_goals exact ⟨hi, nofun⟩

theorem mayFail_of_short {s : State} {i : Instr} (hi : kindOf i = .receiving) : s.MayFail i .eShortRead :=
  ⟨(opcode_receiving_iff i).mpr hi, nofun⟩

/-- R172: the body of a response that passes the check is the payload without its first two bytes, within the capacity,
and empty only where that is accepted. -/
theorem rspCheck_ok {cfg : Params} {p body : List Byte} {a : Byte} {m : Nat} (h : rspCheck cfg p a m = .ok body) :
    body.length + 2 = p.length ∧ body.length ≤ m ∧ (body.length = 0 → cfg.acceptEmptyBody = true) := by
  have hp : 2 ≤ p.length := by
    by_contra hshort
    cases (rspCheck_of_short cfg (by omega) a m).symm.trans h
  rcases rspCheck_cases cfg p a m with he | he | he | ⟨he, -⟩ | he | ⟨he, hm, hempty⟩ <;> cases he.symm.trans h
  refine ⟨?_, hm, hempty⟩
  simp only [slice, List.take_length, List.length_drop]
  omega

theorem cmdPayload_length (cfg : Params) (a : Byte) (v : List Byte) : (cmdPayload cfg a v).length = v.length + 2 := rfl

/-- Everything an operation can do: fault on a broken shape, changing `FAULT` alone, or complete. -/
def Ends (i : Instr) (s : State) : Prop :=
  ∃ t, exec i s = .next t ∧
    ((∃ reason, shapeFault i = some reason ∧ t = s.raiseFault reason (opcode i)) ∨
      (shapeFault i = none ∧ Completes i s t))

/-- RX_PLD, whose read of LEN + 2 bytes is made only where a length is latched. -/
theorem ends_rxPld (s : State) : Ends .rxPld s := by
  obtain ⟨_, ht, ⟨hnone, rfl⟩ | ⟨n, -, hread⟩⟩ := execRxPld_cases s
  · refine ⟨_, ht, .inr ⟨rfl, ?_⟩⟩
    have h : Completes .rxPld s (s.clearLatch.fail .eSeq) := .receptionFailed rfl (.nothing rfl) ⟨rfl, nofun⟩
    rwa [State.clearLatch_of_none hnone] at h
  · have hn : n.toNat + 2 ≤ 257 := by omega
    refine ⟨_, ht, .inr ⟨rfl, ?_⟩⟩
    obtain ⟨-, rfl⟩ | ⟨-, ⟨c, hc, -, rfl⟩ | ⟨p, -, hp, rfl⟩⟩ := hread
    · exact .receptionFailed rfl (.once hn) (mayFail_of_short rfl)
    · exact .receptionFailed rfl (.once hn) (mayFail_of_pldCheck (by simp [opcode]) hc)
    · exact .received rfl (by simp) (.once hn) ⟨by simp [opcode], by simp [opcode], .inr (by omega)⟩

/-- RSP_RX, whose second read is made only after a valid header with a LEN of at least 2. -/
theorem ends_rspRx (a b : Byte) (s : State) : Ends (.rspRx a b) s := by
  have h5 : 5 ≤ 257 := by decide
  obtain ⟨_, ht, ⟨-, rfl⟩ | ⟨hlen, ⟨c, hc, -, rfl⟩ | ⟨n, hn, rfl⟩⟩⟩ := execRspRx_cases a b s
  · exact ⟨_, ht, .inr ⟨rfl, .receptionFailed rfl (.once h5) (mayFail_of_short rfl)⟩⟩
  · exact ⟨_, ht, .inr ⟨rfl, .receptionFailed rfl (.once h5) (mayFail_of_hdrCheck (by simp [opcode]) hc)⟩⟩
  · refine ⟨_, ht, .inr ⟨rfl, ?_⟩⟩
    obtain ⟨-, he⟩ | ⟨h2, hread⟩ := State.rspPayload_cases n a b (s.rxRead 5).clearLatch
    · rw [he]
      exact .receptionFailed rfl (.once h5) ⟨by simp [Status.raisedBy, opcode], nofun⟩
    · have htwo : s.MayRead (.rspRx a b) [5, n.toNat + 2] := .twice rfl hlen hn h2
      obtain ⟨-, he⟩ | ⟨-, ⟨c, hc, -, he⟩ | ⟨p, -, hp, ⟨c, hc, he⟩ | ⟨body, hc, he⟩⟩⟩ := hread <;> rw [he]
      · exact .receptionFailed rfl htwo (mayFail_of_short rfl)
      · exact .receptionFailed rfl htwo (mayFail_of_pldCheck (by simp [opcode]) hc)
      · exact .receptionFailed rfl htwo (mayFail_of_rspCheck (by simp [opcode]) hc)
      · obtain ⟨hbody, -, -⟩ := rspCheck_ok hc
        exact .received rfl (by simp) htwo ⟨by simp [opcode], by simp [opcode], .inr (by omega)⟩

/-- R31 and R203 to R206, operation by operation. -/
theorem exec_ends (i : Instr) (s : State) : Ends i s := by
  cases i
  case brev a => exact ⟨_, rfl, .inr ⟨rfl, .done rfl ⟨by simp [opcode], fun _ => rfl, .inl rfl⟩⟩⟩
  case csumGen v => exact ⟨_, rfl, .inr ⟨rfl, .done rfl ⟨by simp [opcode], fun _ => rfl, .inl rfl⟩⟩⟩
  case csumChk a v =>
    obtain ⟨_, ht, ⟨-, rfl⟩ | ⟨-, rfl⟩⟩ := execCsumChk_cases a v s
    · exact ⟨_, ht, .inr ⟨rfl, .done rfl ⟨fun _ => rfl, fun _ => rfl, .inl rfl⟩⟩⟩
    · exact ⟨_, ht, .inr ⟨rfl, .failed rfl ⟨rfl, nofun⟩⟩⟩
  case frmBuild v =>
    obtain ⟨_, ht, ⟨hlong, rfl⟩ | ⟨hfit, rfl⟩⟩ := execFrmBuild_cases v s
    · exact ⟨_, ht, .inl ⟨_, if_neg hlong.not_ge, rfl⟩⟩
    · refine ⟨_, ht, .inr ⟨if_pos hfit, .done rfl ⟨by simp [opcode], by simp [opcode], .inr ?_⟩⟩⟩
      rw [frame_length]
      omega
  case hdrParse v =>
    obtain ⟨_, ht, ⟨hshape, rfl⟩ | ⟨hlen, ⟨c, hc, -, rfl⟩ | ⟨n, -, rfl⟩⟩⟩ := execHdrParse_cases v s
    · exact ⟨_, ht, .inl ⟨_, if_neg hshape, rfl⟩⟩
    · exact ⟨_, ht, .inr ⟨if_pos hlen, .failed rfl (mayFail_of_hdrCheck (by simp [opcode]) hc)⟩⟩
    · exact ⟨_, ht, .inr ⟨if_pos hlen, .done rfl ⟨by simp [opcode], fun _ => rfl, .inl rfl⟩⟩⟩
  case pldParse a v =>
    obtain ⟨_, ht, ⟨hshape, rfl⟩ | ⟨hlen, ⟨c, hc, -, rfl⟩ | ⟨p, -, hp, rfl⟩⟩⟩ := execPldParse_cases a v s
    · exact ⟨_, ht, .inl ⟨_, if_neg hshape, rfl⟩⟩
    · exact ⟨_, ht, .inr ⟨if_pos hlen, .failed rfl (mayFail_of_pldCheck (by simp [opcode]) hc)⟩⟩
    · exact ⟨_, ht, .inr ⟨if_pos hlen, .done rfl ⟨by simp [opcode], by simp [opcode], .inr (by omega)⟩⟩⟩
  case ackMatch v =>
    obtain ⟨_, ht, ⟨hshape, rfl⟩ | ⟨hlen, ⟨-, rfl⟩ | ⟨-, rfl⟩⟩⟩ := execAckMatch_cases v s
    · exact ⟨_, ht, .inl ⟨_, if_neg hshape, rfl⟩⟩
    · exact ⟨_, ht, .inr ⟨if_pos hlen, .failed rfl ⟨by simp [Status.raisedBy, opcode], nofun⟩⟩⟩
    · exact ⟨_, ht, .inr ⟨if_pos hlen, .done rfl ⟨fun _ => rfl, fun _ => rfl, .inl rfl⟩⟩⟩
  case cmdBuild a v =>
    obtain ⟨_, ht, ⟨hlong, rfl⟩ | ⟨hfit, rfl⟩⟩ := execCmdBuild_cases a v s
    · exact ⟨_, ht, .inl ⟨_, if_neg hlong.not_ge, rfl⟩⟩
    · refine ⟨_, ht, .inr ⟨if_pos hfit, .done rfl ⟨by simp [opcode], by simp [opcode], .inr ?_⟩⟩⟩
      rw [cmdPayload_length]
      omega
  case rspMatch a b v =>
    obtain ⟨_, ht, ⟨hlong, rfl⟩ | ⟨hfit, ⟨c, hc, rfl⟩ | ⟨body, hc, rfl⟩⟩⟩ := execRspMatch_cases a b v s
    · exact ⟨_, ht, .inl ⟨_, if_neg hlong.not_ge, rfl⟩⟩
    · exact ⟨_, ht, .inr ⟨if_pos hfit, .failed rfl (mayFail_of_rspCheck (by simp [opcode]) hc)⟩⟩
    · obtain ⟨hbody, -, -⟩ := rspCheck_ok hc
      exact ⟨_, ht, .inr ⟨if_pos hfit, .done rfl ⟨by simp [opcode], by simp [opcode], .inr (by omega)⟩⟩⟩
  case wireTx v => exact ⟨_, rfl, .inr ⟨rfl, .sent rfl ⟨fun _ => rfl, fun _ => rfl, .inl rfl⟩⟩⟩
  case txFrame v =>
    obtain ⟨_, ht, ⟨hlong, rfl⟩ | ⟨hfit, rfl⟩⟩ := execTxFrame_cases v s
    · exact ⟨_, ht, .inl ⟨_, if_neg hlong.not_ge, rfl⟩⟩
    · refine ⟨_, ht, .inr ⟨if_pos hfit, .sent rfl ⟨by simp [opcode], by simp [opcode], .inr ?_⟩⟩⟩
      rw [frame_length]
      omega
  case cmdTx a v =>
    obtain ⟨_, ht, ⟨hlong, rfl⟩ | ⟨hfit, rfl⟩⟩ := execCmdTx_cases a v s
    · exact ⟨_, ht, .inl ⟨_, if_neg hlong.not_ge, rfl⟩⟩
    · refine ⟨_, ht, .inr ⟨if_pos hfit, .sent rfl ⟨by simp [opcode], by simp [opcode], .inr ?_⟩⟩⟩
      rw [frame_length, cmdPayload_length]
      omega
  case wireRx a =>
    have ha : a.toNat ≤ 257 := by omega
    obtain ⟨_, ht, ⟨-, rfl⟩ | ⟨hlen, rfl⟩⟩ := execWireRx_cases a s
    · exact ⟨_, ht, .inr ⟨rfl, .receptionFailed rfl (.once ha) (mayFail_of_short rfl)⟩⟩
    · refine ⟨_, ht, .inr ⟨rfl, .received rfl (by simp) (.once ha) ⟨by simp [opcode], by simp [opcode], .inr ?_⟩⟩⟩
      rw [fromWire_length]
      omega
  case rxHdr =>
    have h5 : 5 ≤ 257 := by decide
    obtain ⟨_, ht, ⟨-, rfl⟩ | ⟨hlen, ⟨c, hc, -, rfl⟩ | ⟨n, hn, rfl⟩⟩⟩ := execRxHdr_cases s
    · exact ⟨_, ht, .inr ⟨rfl, .receptionFailed rfl (.once h5) (mayFail_of_short rfl)⟩⟩
    · exact ⟨_, ht, .inr ⟨rfl, .receptionFailed rfl (.once h5) (mayFail_of_hdrCheck (by simp [opcode]) hc)⟩⟩
    · exact ⟨_, ht, .inr ⟨rfl, .latched rfl hlen hn⟩⟩
  case rxPld => exact ends_rxPld s
  case rspRx a b => exact ends_rspRx a b s
  case rxAck =>
    have h6 : 6 ≤ 257 := by decide
    obtain ⟨_, ht, ⟨-, rfl⟩ | ⟨-, ⟨-, rfl⟩ | ⟨-, rfl⟩⟩⟩ := execRxAck_cases s
    · exact ⟨_, ht, .inr ⟨rfl, .receptionFailed rfl (.once h6) (mayFail_of_short rfl)⟩⟩
    · exact ⟨_, ht, .inr ⟨rfl, .receptionFailed rfl (.once h6) ⟨by simp [Status.raisedBy, opcode], nofun⟩⟩⟩
    · exact ⟨_, ht, .inr ⟨rfl, .received rfl (by simp) (.once h6) ⟨fun _ => rfl, fun _ => rfl, .inl rfl⟩⟩⟩

end Sys2Proof.Machine
end

section
/-! PROOF. The rules about every operation (R24, R31, R45, R46, R200 to R206), read off the ways an operation ends. -/

namespace Sys2Proof.Machine

/-- `exec_ends` for an operation whose answer is known. -/
theorem exec_cases {i : Instr} {s t : State} (h : exec i s = .next t) :
    (∃ reason, shapeFault i = some reason ∧ t = s.raiseFault reason (opcode i)) ∨
      (shapeFault i = none ∧ Completes i s t) := by
  obtain ⟨u, hu, hcases⟩ := exec_ends i s
  obtain rfl : u = t := Host.Outcome.next.inj (hu.symm.trans h)
  exact hcases

/-! Reads change the transport's side and `RXLOG` alone. -/

theorem State.rxReads_frame (ns : List Nat) (s : State) :
    s.rxReads ns = { s with
      rxIn := (s.rxReads ns).rxIn, rxDraws := (s.rxReads ns).rxDraws, rxLog := (s.rxReads ns).rxLog } := by
  induction ns generalizing s with
  | nil => rfl
  | cons n ns ih => exact ih (s.rxRead n)

@[simp] theorem State.rxReads_nil (s : State) : s.rxReads [] = s := rfl
@[simp] theorem State.rxReads_cons (n : Nat) (ns : List Nat) (s : State) :
    s.rxReads (n :: ns) = (s.rxRead n).rxReads ns := rfl
@[simp] theorem State.rxReads_res (ns : List Nat) (s : State) : (s.rxReads ns).res = s.res := by rw [rxReads_frame]
@[simp] theorem State.rxReads_buf (ns : List Nat) (s : State) : (s.rxReads ns).buf = s.buf := by rw [rxReads_frame]
@[simp] theorem State.rxReads_fault (ns : List Nat) (s : State) : (s.rxReads ns).fault = s.fault := by rw [rxReads_frame]
@[simp] theorem State.rxReads_txLog (ns : List Nat) (s : State) : (s.rxReads ns).txLog = s.txLog := by rw [rxReads_frame]
@[simp] theorem State.rxReads_pc (ns : List Nat) (s : State) : (s.rxReads ns).pc = s.pc := by rw [rxReads_frame]
@[simp] theorem State.rxReads_pending (ns : List Nat) (s : State) : (s.rxReads ns).pending = s.pending := by
  rw [rxReads_frame]

/-- Each read appends its call and answer to `RXLOG`, with no more bytes than it asks for. -/
theorem State.rxReads_rxLog (ns : List Nat) (s : State) :
    ∃ reads, (s.rxReads ns).rxLog = s.rxLog ++ reads ∧ ∀ e ∈ reads, e.2.length ≤ e.1 ∧ e.1 ∈ ns := by
  induction ns generalizing s with
  | nil => exact ⟨[], by simp⟩
  | cons n ns ih =>
    obtain ⟨reads, hlog, hreads⟩ := ih (s.rxRead n)
    refine ⟨(n, s.rxAnswer n) :: reads, by simp [hlog], fun e he => ?_⟩
    obtain rfl | he := List.mem_cons.mp he
    · exact ⟨s.rxAnswer_length_le n, List.mem_cons_self⟩
    · exact ⟨(hreads e he).1, List.mem_cons_of_mem n (hreads e he).2⟩

/-- R7, R150: no read asks for more than 257 bytes. -/
theorem State.MayRead.le {s : State} {i : Instr} {ns : List Nat} (h : s.MayRead i ns) : ∀ n ∈ ns, n ≤ 257 := by
  cases h with
  | nothing _ => simp
  | once hn => simpa using hn
  | twice _ _ _ _ =>
    intro n hn
    simp only [List.mem_cons, List.not_mem_nil, or_false] at hn
    omega

theorem ne_rxHdr_of_sending {i : Instr} (hk : kindOf i = .sending) : i ≠ .rxHdr := by
  rintro rfl
  cases hk

theorem Status.code_eq_zero_iff (c : Status) : c.code = 0x00 ↔ c = .ok := by
  cases c <;> decide

theorem Status.code_le (c : Status) : c.code.toNat ≤ 0x0D := by
  cases c <;> decide

theorem State.MayFail.code_ne_zero {s : State} {i : Instr} {c : Status} (h : s.MayFail i c) : c.code ≠ 0x00 := by
  intro hc
  obtain rfl := (Status.code_eq_zero_iff c).mp hc
  exact h.raised

namespace Completes

variable {i : Instr} {s t : State}

/-- What no operation that completes writes. -/
theorem frame (h : Completes i s t) : t.fault = s.fault ∧ t.pending = s.pending ∧ t.pc = s.pc := by
  cases h <;> simp

theorem status (h : Completes i s t) : t.st = 0x00 ∨ ∃ c, s.MayFail i c ∧ t.st = c.code := by
  cases h with
  | failed _ hc => exact .inr ⟨_, hc, rfl⟩
  | receptionFailed _ _ hc => exact .inr ⟨_, hc, rfl⟩
  | done _ _ => exact .inl rfl
  | sent _ _ => exact .inl rfl
  | received _ _ _ _ => exact .inl rfl
  | latched _ _ _ => exact .inl rfl

/-- R204: a failure is that of a check on the operand, or of a reception. -/
theorem of_failed (h : Completes i s t) (hst : t.st ≠ 0x00) :
    (kindOf i = .pure ∧ ∃ c, t = s.fail c) ∨
      (kindOf i = .receiving ∧ ∃ ns c, t = (s.rxReads ns).clearLatch.fail c) := by
  cases h with
  | failed hk _ => exact .inl ⟨hk, _, rfl⟩
  | receptionFailed hk _ _ => exact .inr ⟨hk, _, _, rfl⟩
  | done _ _ => exact absurd rfl hst
  | sent _ _ => exact absurd rfl hst
  | received _ _ _ _ => exact absurd rfl hst
  | latched _ _ _ => exact absurd rfl hst

/-- R46: a pure operation writes no more than the result port. -/
theorem of_pure (h : Completes i s t) (hk : kindOf i = .pure) : t = { s with st := t.st, res := t.res, buf := t.buf } := by
  cases h with
  | failed _ _ => rfl
  | done _ _ => rfl
  | _ => simp_all

/-- R27: a sending operation reads nothing. -/
theorem of_sending (h : Completes i s t) (hk : kindOf i = .sending) :
    t.rxLog = s.rxLog ∧ t.rxIn = s.rxIn ∧ t.rxDraws = s.rxDraws := by
  cases h with
  | sent _ _ => exact ⟨rfl, rfl, rfl⟩
  | _ => simp_all

/-- R26: writes to the transport are appended. -/
theorem txLog_grows (h : Completes i s t) : s.txLog <+: t.txLog := by
  cases h <;> simp

/-- R26: a receiving operation sends nothing. -/
theorem txLog_of_receiving (h : Completes i s t) (hk : kindOf i = .receiving) : t.txLog = s.txLog := by
  cases h with
  | sent hk' _ => simp_all
  | _ => simp

/-- R7, R27, R150: the reads of an operation are appended to `RXLOG`, each at most 257 bytes and answered with no more than
it asks for. -/
theorem rxLog_append (h : Completes i s t) :
    ∃ reads, t.rxLog = s.rxLog ++ reads ∧ ∀ e ∈ reads, e.2.length ≤ e.1 ∧ e.1 ≤ 257 := by
  have reception {ns : List Nat} (hn : s.MayRead i ns) :
      ∃ reads, (s.rxReads ns).rxLog = s.rxLog ++ reads ∧ ∀ e ∈ reads, e.2.length ≤ e.1 ∧ e.1 ≤ 257 := by
    obtain ⟨reads, hlog, hreads⟩ := s.rxReads_rxLog ns
    exact ⟨reads, hlog, fun e he => ⟨(hreads e he).1, hn.le _ (hreads e he).2⟩⟩
  cases h with
  | receptionFailed _ hn _ => exact reception hn
  | received _ _ hn _ => exact reception hn
  | latched hi hread _ => exact reception (.once (n := 5) (by decide))
  | _ => exact ⟨[], by simp⟩

/-- R22, R23, R31: an operation that completes keeps the result registers or leaves what it may. -/
theorem results (h : Completes i s t) : (t.res = s.res ∧ t.buf = s.buf) ∨ s.MayLeave i t.res t.buf := by
  cases h with
  | failed _ _ => exact .inl ⟨rfl, rfl⟩
  | receptionFailed _ _ _ => exact .inl (by simp)
  | done _ hl => exact .inr hl
  | sent _ hl => exact .inr hl
  | received _ _ _ hl => exact .inr hl
  | latched hi _ _ => subst hi; exact .inr ⟨by simp [opcode], fun _ => rfl, .inl rfl⟩

/-- R24: the latch after an operation that completes. -/
theorem rxl_eq (h : Completes i s t) :
    t.rxl = if isStream i = false then s.rxl else if i = .rxHdr ∧ t.st = 0x00 then some t.res else none := by
  have hpure := isStream_eq_false_iff i
  cases h with
  | failed hk _ => simp [hpure, hk]
  | done hk _ => simp [hpure, hk]
  | sent hk _ => simp [hpure, hk, ne_rxHdr_of_sending hk]
  | receptionFailed hk _ hc =>
    rw [if_neg (by simp [hpure, hk]), if_neg fun hok => hc.code_ne_zero hok.2]
    rfl
  | received hk hi _ _ => simp [hpure, hk, hi]
  | latched hi _ _ => subst hi; rfl

end Completes

/-- R205: a broken shape raises the reason that the fault table gives the operation's opcode. -/
theorem raisedBy_of_shapeFault {i : Instr} {reason : FaultReason} (h : shapeFault i = some reason) :
    reason.raisedBy (opcode i) := by
  cases i <;> simp only [shapeFault, Option.ite_none_left_eq_some, reduceCtorEq, Option.some.injEq] at h <;>
    obtain ⟨-, rfl⟩ := h <;> simp [FaultReason.raisedBy, opcode]

/-- R205: an unfaulted block is faulted by exactly the operations whose operand breaks the shape of their row. -/
theorem exec_fault_eq_none_iff {i : Instr} {s t : State} (h : exec i s = .next t) (hs : s.fault = none) :
    t.fault = none ↔ shapeFault i = none := by
  obtain ⟨reason, hshape, rfl⟩ | ⟨hshape, hc⟩ := exec_cases h
  · simp [hshape]
  · simp [hshape, hc.frame, hs]

/-- An operation that leaves an unfaulted block unfaulted has completed. -/
theorem completes_of_next {i : Instr} {s t : State} (h : exec i s = .next t) (ht : t.fault = none) : Completes i s t := by
  obtain ⟨reason, -, rfl⟩ | ⟨-, hc⟩ := exec_cases h
  · cases ht
  · exact hc

/-- An operation that receives always completes. -/
theorem completes_of_receiving {i : Instr} {s t : State} (h : exec i s = .next t) (hk : kindOf i = .receiving) :
    Completes i s t := by
  obtain ⟨reason, hshape, -⟩ | ⟨-, hc⟩ := exec_cases h
  · simp [shapeFault_of_receiving hk] at hshape
  · exact hc

/-- Settles O45: the shape guard is the only way into a fault, and `shapeFault` is the column of shapes. -/
theorem faultsExactlyOnBrokenShape : Obligations.FaultsExactlyOnBrokenShape := by
  intro i s t h hs
  rw [exec_fault_eq_none_iff h hs]
  cases i <;> simp [shapeFault] <;> rfl

/-- Settles O44: an operation that completes leaves FAULT as it was, so it was the shape guard. -/
theorem faultChangesOnlyTheFaultRegister : Obligations.FaultChangesOnlyTheFaultRegister := by
  intro i s t h hs ht
  obtain ⟨reason, hshape, rfl⟩ | ⟨-, hc⟩ := exec_cases h
  · exact ⟨reason, raisedBy_of_shapeFault hshape, rfl⟩
  · obtain ⟨hfault, -, -⟩ := hc.frame
    exact absurd (hfault.trans hs) ht

/-- Settles O42: a code left is OK or one that the operation may fail with. -/
theorem statusCodesAreRaisedWhereTabled : Obligations.StatusCodesAreRaisedWhereTabled := by
  intro i s t h hs ht
  obtain hst | ⟨c, ⟨hraised, hempty⟩, hst⟩ := (completes_of_next h ht).status
  · simp [hst]
  · rw [hst]
    cases c <;> simp_all [Status.code, Status.raisedBy]

/-- Settles O43: a failure is that of a check or of a reception, and neither writes a result register. -/
theorem failureWritesOnlyStatusAndLatch : Obligations.FailureWritesOnlyStatusAndLatch := by
  intro i s t h hs ht hst
  have hpure := isStream_eq_false_iff i
  obtain ⟨hk, c, rfl⟩ | ⟨hk, ns, c, rfl⟩ := (completes_of_next h ht).of_failed hst
  · exact ⟨rfl, rfl, rfl, rfl, ⟨[], List.append_nil _⟩, fun hi => by simp [hpure.mpr hk] at hi, fun _ => rfl⟩
  · obtain ⟨reads, hlog, -⟩ := s.rxReads_rxLog ns
    refine ⟨by simp, by simp, by simp, by simp, ⟨reads, hlog.symm⟩, fun _ => rfl, fun hi => ?_⟩
    simp [hpure.mp hi] at hk

/-- Settles O47: the kind of the operation says what it does with the transport. -/
theorem streamOperationsFrame : Obligations.StreamOperationsFrame := by
  intro i s t hi h
  simp only [opcode_sending_iff, opcode_receiving_iff]
  refine ⟨exec_params h, ?_⟩
  obtain ⟨reason, hshape, rfl⟩ | ⟨-, hc⟩ := exec_cases h
  · exact ⟨rfl, rfl, fun _ => ⟨rfl, rfl, rfl⟩, fun hk => by simp [shapeFault_of_receiving hk] at hshape⟩
  · obtain ⟨hfault, hpending, hpc⟩ := hc.frame
    exact ⟨hpending, hpc, hc.of_sending, fun hk => ⟨hc.txLog_of_receiving hk, hfault⟩⟩

/-- Settles O48: a fault writes neither register, and an operation that completes only what it may. -/
theorem resultRegistersWrittenWhereTabled : Obligations.ResultRegistersWrittenWhereTabled := by
  intro i s t h
  obtain ⟨reason, -, rfl⟩ | ⟨-, hc⟩ := exec_cases h
  · exact ⟨fun _ => rfl, fun _ => rfl⟩
  · obtain ⟨hres, hbuf⟩ | ⟨hres, hbuf, -⟩ := hc.results
    · exact ⟨fun _ => hres, fun _ => hbuf⟩
    · exact ⟨hres, hbuf⟩

/-- Settles O50: the latch after each way an operation completes. -/
theorem latchSetOnlyBySuccessfulHeader : Obligations.LatchSetOnlyBySuccessfulHeader :=
  fun _ _ _ h _ ht => (completes_of_next h ht).rxl_eq

/-- R154: with a length latched, RX_PLD does not fail with E_SEQ. -/
theorem exec_rxPld_st_ne_eSeq {s t : State} (h : exec .rxPld s = .next t) (hl : s.rxl ≠ none) : t.st ≠ 0x0C := by
  obtain ⟨u, hu, hcases⟩ := execRxPld_cases s
  obtain rfl : u = t := Host.Outcome.next.inj (hu.symm.trans h)
  obtain ⟨hnone, -⟩ | ⟨n, -, ⟨-, rfl⟩ | ⟨-, ⟨c, rfl | rfl, -, rfl⟩ | ⟨p, -, -, rfl⟩⟩⟩ := hcases
  · exact absurd hnone hl
  all_goals simp [Status.code]

/-- Settles O52: the latch says what RX_PLD does next, and O50 says what the latch is. -/
theorem strayAccessBreaksTheSequence : Obligations.StrayAccessBreaksTheSequence := by
  intro i s t h _ ht
  have hrxl := (completes_of_next h ht).rxl_eq
  refine ⟨fun hi hstray => ?_, fun hi u hu hl => ?_⟩
  · rw [if_neg (by simp [hi]), if_neg hstray] at hrxl
    exact exec_rxPld_of_unlatched hrxl
  · rw [if_pos hi] at hrxl
    exact exec_rxPld_st_ne_eSeq hu (hrxl ▸ hl)

/-- Settles O49: none but a reception reads, and a reception reads what it may. -/
theorem atMostTwoReadsPerOperation : Obligations.AtMostTwoReadsPerOperation := by
  intro i s t h
  have reception {ns : List Nat} (hn : s.MayRead i ns) : ∃ reads, (s.rxReads ns).rxLog = s.rxLog ++ reads ∧
      (reads.length ≤ 1 ∨ ∃ a b first second n, i = .rspRx a b ∧ reads = [(5, first), (n + 2, second)] ∧
        first.length = 5 ∧ hdrCheck (fromWire first) = .ok (BitVec.ofNat 8 n) ∧ 2 ≤ n ∧ n ≤ 255) := by
    cases hn with
    | nothing _ => exact ⟨[], by simp⟩
    | @once n _ => exact ⟨[(n, s.rxAnswer n)], rfl, .inl le_rfl⟩
    | @twice a b n hi hread hhdr hn =>
      refine ⟨_, List.append_assoc _ _ _, .inr ⟨a, b, _, _, n.toNat, hi, rfl, hread, ?_, hn, by omega⟩⟩
      rwa [BitVec.ofNat_toNat, BitVec.setWidth_eq]
  obtain ⟨reason, -, rfl⟩ | ⟨-, hc⟩ := exec_cases h
  · exact ⟨[], by simp⟩
  · cases hc with
    | receptionFailed _ hn _ => exact reception hn
    | received _ _ hn _ => exact reception hn
    | latched _ _ _ => exact reception (.once (n := 5) (by decide))
    | _ => exact ⟨[], by simp⟩

end Sys2Proof.Machine
end

section
/-! PROOF. One step: an idle block, a reset, a request that runs its operation, or an unassigned `OP` (R20, R84, R206,
R214, R232). The rules about steps and the invariants are read off these four. -/

namespace Sys2Proof.Machine

theorem State.fetch_of_decoded {s : State} {r : Request} {rest : List HostMove} {i : Instr} (hf : s.fault = none)
    (hp : s.pending = .request r :: rest) (hd : decode r = .ok i) : s.fetch = .run i { s with pending := rest } := by
  simp only [State.fetch, hp, hd]
  split
  · simp_all
  · rfl

/-- A decoded request is taken off the port and run, and "pc" moves as `complete` says. -/
theorem step_of_decoded {s t : State} {r : Request} {rest : List HostMove} {i : Instr} (hf : s.fault = none)
    (hp : s.pending = .request r :: rest) (hd : decode r = .ok i) (h : exec i { s with pending := rest } = .next t) :
    step s = .next t.complete := by
  simp only [step, State.fetch_of_decoded hf hp hd, h, retire]

/-- Everything a step can do that answers a next state. -/
theorem step_cases {s t : State} (h : step s = .next t) :
    (s.pending = [] ∧ t = s) ∨
    (∃ rest, s.pending = .reset :: rest ∧ t = s.hostReset rest) ∨
    (∃ r rest i u, s.pending = .request r :: rest ∧ s.fault = none ∧ decode r = .ok i ∧
      exec i { s with pending := rest } = .next u ∧ t = u.complete) ∨
    (∃ r rest, s.pending = .request r :: rest ∧ s.fault = none ∧ assigned r.op = false ∧
      t = State.raiseFault .illegalOp r.op { s with pending := rest }) := by
  rcases s.fetch_cases with ⟨hp, hf⟩ | ⟨rest, hp, hf⟩ | ⟨r, rest, reason, op, -, -, hf⟩ |
    ⟨r, rest, i, hp, hfault, hd, hf⟩ | ⟨r, rest, op, hp, hfault, hd, hf⟩ | ⟨r, rest, n, -, -, -, hf⟩ <;>
    simp only [step, hf, reduceCtorEq, Host.Outcome.next.injEq] at h
  · exact .inl ⟨hp, h.symm⟩
  · exact .inr (.inl ⟨rest, hp, h.symm⟩)
  · obtain ⟨u, hu, -⟩ := exec_ends i { s with pending := rest }
    rw [hu] at h
    exact .inr (.inr (.inl ⟨r, rest, i, u, hp, hfault, hd, hu, (Host.Outcome.next.inj h).symm⟩))
  · obtain ⟨he, hnone⟩ | ⟨he, -⟩ := decode_error_cases r _ hd
    · cases he
      exact .inr (.inr (.inr ⟨r, rest, hp, hfault, (decodeOp_eq_none_iff r).mp hnone, h.symm⟩))
    · cases he

/-! Completion moves "pc" alone. -/

theorem State.complete_eq (s : State) : s.complete = { s with pc := if s.fault = none then s.pc + 1 else s.pc } := by
  by_cases h : s.fault = none
  · rw [if_pos h]
    exact State.complete_of_none h
  · obtain ⟨x, hx⟩ := Option.ne_none_iff_exists'.mp h
    rw [if_neg h]
    exact State.complete_of_some hx

@[simp] theorem State.complete_st (s : State) : s.complete.st = s.st := by rw [complete_eq]
@[simp] theorem State.complete_res (s : State) : s.complete.res = s.res := by rw [complete_eq]
@[simp] theorem State.complete_buf (s : State) : s.complete.buf = s.buf := by rw [complete_eq]
@[simp] theorem State.complete_rxl (s : State) : s.complete.rxl = s.rxl := by rw [complete_eq]
@[simp] theorem State.complete_fault (s : State) : s.complete.fault = s.fault := by rw [complete_eq]
@[simp] theorem State.complete_txLog (s : State) : s.complete.txLog = s.txLog := by rw [complete_eq]
@[simp] theorem State.complete_rxLog (s : State) : s.complete.rxLog = s.rxLog := by rw [complete_eq]

/-! What an operation leaves as it was, or appends to, whether it completes or faults. -/

theorem exec_pc {i : Instr} {s t : State} (h : exec i s = .next t) : t.pc = s.pc := by
  obtain ⟨reason, -, rfl⟩ | ⟨-, hc⟩ := exec_cases h
  · rfl
  · obtain ⟨-, -, hpc⟩ := hc.frame
    exact hpc

theorem exec_txLog_grows {i : Instr} {s t : State} (h : exec i s = .next t) : s.txLog <+: t.txLog := by
  obtain ⟨reason, -, rfl⟩ | ⟨-, hc⟩ := exec_cases h
  · exact ⟨[], List.append_nil _⟩
  · exact hc.txLog_grows

theorem exec_rxLog_append {i : Instr} {s t : State} (h : exec i s = .next t) :
    ∃ reads, t.rxLog = s.rxLog ++ reads ∧ ∀ e ∈ reads, e.2.length ≤ e.1 ∧ e.1 ≤ 257 := by
  obtain ⟨reason, -, rfl⟩ | ⟨-, hc⟩ := exec_cases h
  · exact ⟨[], by simp⟩
  · exact hc.rxLog_append

/-- Settles O2: the reset state, but for the host's and the transport's side, is R230's table. -/
theorem hostResetTouchesNoTransport : Obligations.HostResetTouchesNoTransport := by
  intro s rest hp
  simp only [step, State.fetch, hp]
  rfl

/-- Settles O3: of the steps that answer a next state, only a reset is open to a faulted block and clears FAULT. -/
theorem onlyResetClearsFault : Obligations.OnlyResetClearsFault := by
  intro s t h hs ht
  obtain ⟨-, rfl⟩ | ⟨rest, hp, -⟩ | ⟨r, rest, i, u, -, hf, -⟩ | ⟨r, rest, -, hf, -⟩ := step_cases h
  · exact absurd ht hs
  · exact ⟨rest, hp⟩
  · exact absurd hf hs
  · exact absurd hf hs

/-- Settles O4: the look at a request stops at a FAULT that is set. -/
theorem faultedBlockTakesNoRequest : Obligations.FaultedBlockTakesNoRequest := by
  intro s reason op r rest hf hp
  simp only [step, State.fetch, hp, hf]

/-- Settles O5: with no move waiting, the step settles where it stands. -/
theorem idleBlockKeepsAllState : Obligations.IdleBlockKeepsAllState := by
  intro s hp
  simp only [step, State.fetch, hp]

/-- Settles O6: every operation answers a next state, and completion is the clause on "pc". -/
theorem stepRunsTheDecodedOperation : Obligations.StepRunsTheDecodedOperation := by
  intro s r rest i hf hp hd
  obtain ⟨t, ht, -⟩ := exec_ends i { s with pending := rest }
  exact ⟨t, ht, (step_of_decoded hf hp hd ht).trans (congrArg Host.Outcome.next t.complete_eq)⟩

/-- Settles O7: the listed ranges are the opcodes without a row, and such a request enters the fault. -/
theorem unassignedOpcodeFaults : Obligations.UnassignedOpcodeFaults := by
  intro s r rest hf hp hv
  rw [← assigned_eq_false_iff, exists_decode_ok_iff hv, Bool.not_eq_false]
  refine ⟨Iff.rfl, fun h => ?_⟩
  simp only [step, State.fetch, hp, hf, decode_of_unassigned hv h]
  rfl

/-- Settles O8: the decoder rejects what the port cannot carry, and the step refuses it. -/
theorem oversizedRequestIsRefused : Obligations.OversizedRequestIsRefused := by
  intro s r rest hf hp hv
  have hd : decode r = .error (.portOverflow r.v.length) :=
    if_neg fun hfits => hv.not_ge ((vFits_iff r.v).mp hfits)
  simp only [step, State.fetch, hp, hf, hd]

/-- Settles O54: an operation appends to the logs, and every other step but a reset leaves them. -/
theorem logsOnlyGrow : Obligations.LogsOnlyGrow := by
  intro s t h hreset
  obtain ⟨-, rfl⟩ | ⟨rest, hp, -⟩ | ⟨r, rest, i, u, -, -, -, hu, rfl⟩ | ⟨r, rest, -, -, -, rfl⟩ := step_cases h
  · exact ⟨⟨[], List.append_nil _⟩, ⟨[], List.append_nil _⟩⟩
  · exact absurd hp (hreset rest)
  · obtain ⟨reads, hlog, -⟩ := exec_rxLog_append hu
    rw [State.complete_txLog, State.complete_rxLog]
    exact ⟨(exec_txLog_grows hu :), ⟨reads, hlog.symm⟩⟩
  · exact ⟨⟨[], List.append_nil _⟩, ⟨[], List.append_nil _⟩⟩

/-- Settles O55: an operation leaves "pc" to completion. -/
theorem pcCountsCompletedRequests : Obligations.PcCountsCompletedRequests := by
  intro s t h
  obtain ⟨hp, rfl⟩ | ⟨rest, hp, rfl⟩ | ⟨r, rest, i, u, hp, -, -, hu, rfl⟩ | ⟨r, rest, hp, -, -, rfl⟩ := step_cases h
  · exact ⟨fun _ => rfl, by simp [hp], by simp [hp]⟩
  · exact ⟨by simp [hp], fun _ _ => rfl, by simp [hp]⟩
  · have hpc : u.complete.pc = if u.complete.fault = none then s.pc + 1 else s.pc := by
      rw [State.complete_fault, State.complete_eq, exec_pc hu]
    exact ⟨by simp [hp], by simp [hp], fun _ _ _ => hpc⟩
  · exact ⟨by simp [hp], by simp [hp], fun _ _ _ => rfl⟩

/-! The invariants. -/

/-- An operation keeps a state legal, by the ways it ends; R205 for the FAULT it may raise. -/
theorem exec_inv {i : Instr} {s t : State} (h : exec i s = .next t) (hs : s.Inv) : t.Inv := by
  obtain ⟨hst, hbuf, hreads, hfault⟩ := hs
  obtain ⟨reason, hshape, rfl⟩ | ⟨-, hc⟩ := exec_cases h
  · refine ⟨hst, hbuf, hreads, fun reason' op hf => ?_⟩
    obtain ⟨rfl, rfl⟩ : reason = reason' ∧ opcode i = op := by simpa using hf
    exact raisedBy_of_shapeFault hshape
  · refine ⟨?_, ?_, ?_, ?_⟩
    · obtain hok | ⟨c, -, hcode⟩ := hc.status
      · simp [hok]
      · exact hcode ▸ c.code_le
    · obtain ⟨-, hkept⟩ | ⟨-, -, hkept | hfits⟩ := hc.results
      · exact hkept ▸ hbuf
      · exact hkept ▸ hbuf
      · exact hfits
    · obtain ⟨reads, hlog, hbounded⟩ := hc.rxLog_append
      intro e he
      rw [hlog, List.mem_append] at he
      exact he.elim (hreads e) (hbounded e)
    · obtain ⟨hkept, -, -⟩ := hc.frame
      exact hkept ▸ hfault

theorem State.inv_reset : State.reset.Inv :=
  ⟨by decide, by decide, nofun, nofun⟩

/-- The invariant of legal states looks at nothing but these four fields. -/
theorem State.Inv.congr {s t : State} (h : s.Inv) (hst : t.st = s.st) (hbuf : t.buf = s.buf) (hlog : t.rxLog = s.rxLog)
    (hfault : t.fault = s.fault) : t.Inv :=
  ⟨hst ▸ h.st_is_a_code, hbuf ▸ h.buf_fits, hlog ▸ h.reads_bounded, hfault ▸ h.fault_legal⟩

/-- Settles O57: a reset leaves R230's table, an operation keeps the invariant, and an unassigned `OP` enters FAULT with
the reason it raises. -/
theorem everyStepKeepsTheStateLegal : Obligations.EveryStepKeepsTheStateLegal := by
  intro s t hs h
  obtain ⟨-, rfl⟩ | ⟨rest, -, rfl⟩ | ⟨r, rest, i, u, -, -, -, hu, rfl⟩ | ⟨r, rest, -, -, hop, rfl⟩ := step_cases h
  · exact hs
  · exact State.inv_reset.congr rfl rfl rfl rfl
  · exact (exec_inv hu (hs.congr rfl rfl rfl rfl)).congr (by simp) (by simp) (by simp) (by simp)
  · refine ⟨hs.st_is_a_code, hs.buf_fits, hs.reads_bounded, fun reason op hf => ?_⟩
    obtain ⟨rfl, rfl⟩ : FaultReason.illegalOp = reason ∧ r.op = op := by simpa using hf
    exact hop

/-- The invariant of the latch looks at nothing but the latch and `RXLOG`. -/
theorem State.LatchIsLastHeader.congr {s t : State} (h : s.LatchIsLastHeader) (hrxl : t.rxl = s.rxl)
    (hlog : t.rxLog = s.rxLog) : t.LatchIsLastHeader := by
  rw [State.LatchIsLastHeader, hrxl, hlog]
  exact h

theorem State.latchIsLastHeader_of_none {s : State} (h : s.rxl = none) : s.LatchIsLastHeader :=
  fun _ hn => nomatch h.symm.trans hn

/-- A pure operation reads nothing and keeps the latch; every stream operation clears it, but for RX_HDR, which latches
the LEN of the header it just read. -/
theorem Completes.latchIsLastHeader {i : Instr} {s t : State} (h : Completes i s t) (hs : s.LatchIsLastHeader) :
    t.LatchIsLastHeader := by
  cases h with
  | failed _ _ => exact hs.congr rfl rfl
  | done _ _ => exact hs.congr rfl rfl
  | sent _ _ => exact State.latchIsLastHeader_of_none rfl
  | receptionFailed _ _ _ => exact State.latchIsLastHeader_of_none rfl
  | received _ _ _ _ => exact State.latchIsLastHeader_of_none rfl
  | @latched len _ hread hhdr =>
    intro n hn
    obtain rfl : len = n := Option.some.inj hn
    exact ⟨s.rxLog, s.rxAnswer 5, rfl, hread, hhdr⟩

/-- Settles O58: an operation keeps the invariant when it completes, and nothing else touches latch or `RXLOG` but a
reset, which clears the latch. -/
theorem latchedLengthIsOfTheLastRead : Obligations.LatchedLengthIsOfTheLastRead := by
  intro s t hs h
  obtain ⟨-, rfl⟩ | ⟨rest, -, rfl⟩ | ⟨r, rest, i, u, -, -, -, hu, rfl⟩ | ⟨r, rest, -, -, -, rfl⟩ := step_cases h
  · exact hs
  · exact State.latchIsLastHeader_of_none rfl
  · have hu' : u.LatchIsLastHeader := by
      obtain ⟨reason, -, rfl⟩ | ⟨-, hc⟩ := exec_cases hu
      · exact hs.congr rfl rfl
      · exact hc.latchIsLastHeader (hs.congr rfl rfl)
    exact hu'.congr (by simp) (by simp)
  · exact hs.congr rfl rfl

/-- Settles O56: nothing is read, faulted or latched in the reset state. -/
theorem resetStateIsLegal : Obligations.ResetStateIsLegal :=
  ⟨State.inv_reset, State.latchIsLastHeader_of_none rfl⟩

end Sys2Proof.Machine
end

section
/-! PROOF. What an operation does not look at: the pure ones at what they wrote (R46), every one but RX_PLD at the latch
(R34), the assembly ones at the transport (R127). -/

namespace Sys2Proof.Machine

/-- A pure operation judges its operand, under fixed parameters, and writes the same again when issued again. -/
theorem exec_idem_of_judged {α : Type} {i : Instr} {s t : State} (r : Except Status α) (k : α → State → State)
    (hi : ∀ u : State, u.params = s.params → exec i u = .next (u.shaped i (u.judge r fun x => k x u)))
    (hk : ∀ x u, k x (k x u) = k x u) (h : exec i s = .next t) : exec i t = .next t := by
  rw [hi t (exec_params h)]
  obtain rfl := Host.Outcome.next.inj ((hi s rfl).symm.trans h)
  cases hshape : shapeFault i with
  | some reason => simp only [State.shaped, hshape]; rfl
  | none =>
    simp only [State.shaped, hshape]
    cases r with
    | error c => rfl
    | ok x => exact congrArg Host.Outcome.next (hk x s)

/-- R46: a pure operation issued again leaves the same state. -/
theorem exec_idem {i : Instr} {s t : State} (hk : kindOf i = .pure) (h : exec i s = .next t) : exec i t = .next t := by
  cases i
  case brev a => exact exec_idem_of_judged (.ok ()) (fun _ u => (u.setRes (brev a)).ok) (fun _ _ => rfl) (fun _ _ => rfl) h
  case csumGen v =>
    exact exec_idem_of_judged (.ok ()) (fun _ u => (u.setRes (checksum v)).ok) (fun _ _ => rfl) (fun _ _ => rfl) h
  case csumChk a v =>
    refine exec_idem_of_judged (if sumsToZero v a then .ok () else .error .eCsum) (fun _ u => u.ok) (fun u _ => ?_)
      (fun _ _ => rfl) h
    simp only [exec, execCsumChk]
    split <;> rfl
  case frmBuild v =>
    exact exec_idem_of_judged (.ok ()) (fun _ u => ((u.setBuf (frame v)).setRes (lenByte v)).ok) (fun _ _ => rfl)
      (fun _ _ => rfl) h
  case hdrParse v =>
    exact exec_idem_of_judged (hdrCheck v) (fun n u => (u.setRes n).ok) (fun _ _ => rfl) (fun _ _ => rfl) h
  case pldParse a v =>
    exact exec_idem_of_judged (pldCheck (count a) v) (fun p u => ((u.setBuf p).setRes a).ok) (fun _ _ => rfl)
      (fun _ _ => rfl) h
  case ackMatch v => exact exec_idem_of_judged (ackCheck v) (fun _ u => u.ok) (fun _ _ => rfl) (fun _ _ => rfl) h
  case cmdBuild a v =>
    refine exec_idem_of_judged (.ok ()) (fun _ u => ((u.setBuf (cmdPayload s.params a v)).setRes
      (lenByte (cmdPayload s.params a v))).ok) (fun u hu => ?_) (fun _ _ => rfl) h
    rw [← hu]
    rfl
  case rspMatch a b v =>
    refine exec_idem_of_judged (rspCheck s.params v a (count b)) (fun body u => ((u.setBuf body).setRes (lenByte body)).ok)
      (fun u hu => ?_) (fun _ _ => rfl) h
    rw [← hu]
    rfl
  all_goals cases hk

/-- Settles O46: a fault changes FAULT alone, and a pure operation that completes the result port alone. -/
theorem pureOperationsTouchNoTransport : Obligations.PureOperationsTouchNoTransport := by
  intro i s t hi h
  have hk : kindOf i = .pure := (isStream_eq_false_iff i).mp hi
  refine ⟨?_, exec_idem hk h⟩
  obtain ⟨reason, -, rfl⟩ | ⟨-, hc⟩ := exec_cases h
  · rfl
  · obtain ⟨hfault, -, -⟩ := hc.frame
    rw [hfault]
    exact hc.of_pure hk

/-! States that differ in the latch alone: equal once it is cleared. -/

theorem State.shaped_clearLatch {s u body body' : State} {i : Instr} (h : u.clearLatch = s.clearLatch)
    (hb : body'.clearLatch = body.clearLatch) : (u.shaped i body').clearLatch = (s.shaped i body).clearLatch := by
  unfold State.shaped
  cases shapeFault i with
  | none => exact hb
  | some reason => exact congrArg (State.raiseFault reason (opcode i)) h

theorem State.judge_clearLatch {α : Type} {s u : State} {r : Except Status α} {k k' : α → State}
    (h : u.clearLatch = s.clearLatch) (hk : ∀ x, (k' x).clearLatch = (k x).clearLatch) :
    (u.judge r k').clearLatch = (s.judge r k).clearLatch := by
  cases r with
  | error c => exact congrArg (State.fail c) h
  | ok x => exact hk x

/-- R34: an operation other than RX_PLD does the same, the latch apart, whatever the latch held. A receiving one begins
by clearing it. -/
theorem exec_of_other_latch {i : Instr} (hi : i ≠ .rxPld) (s : State) (l : Option Byte) :
    ∃ t u, exec i s = .next t ∧ exec i { s with rxl := l } = .next u ∧ u.clearLatch = t.clearLatch := by
  cases i <;> refine ⟨_, _, rfl, rfl, ?_⟩
  case rxPld => exact absurd rfl hi
  case csumChk a v => split <;> rfl
  case frmBuild v => exact State.shaped_clearLatch rfl rfl
  case hdrParse v => exact State.shaped_clearLatch rfl (State.judge_clearLatch rfl fun _ => rfl)
  case pldParse a v => exact State.shaped_clearLatch rfl (State.judge_clearLatch rfl fun _ => rfl)
  case ackMatch v => exact State.shaped_clearLatch rfl (State.judge_clearLatch rfl fun _ => rfl)
  case cmdBuild a v => exact State.shaped_clearLatch rfl rfl
  case rspMatch a b v => exact State.shaped_clearLatch rfl (State.judge_clearLatch rfl fun _ => rfl)
  case txFrame v => exact State.shaped_clearLatch rfl rfl
  case cmdTx a v => exact State.shaped_clearLatch rfl rfl
  all_goals rfl

/-- Settles O51: the two next states agree once the latch of both is cleared. -/
theorem latchHiddenFromOtherOperations : Obligations.LatchHiddenFromOtherOperations := by
  intro i s t l hi h
  obtain ⟨t', u, ht, hu, heq⟩ := exec_of_other_latch hi s l
  obtain rfl : t' = t := Host.Outcome.next.inj (ht.symm.trans h)
  exact ⟨u, hu, heq⟩

/-- The same state with the transport's side and what was read from it exchanged. -/
def State.withOracle (x : List (List Byte)) (d : Nat) (old : List (Nat × List Byte)) (s : State) : State :=
  { s with rxIn := x, rxDraws := d, rxLog := old }

theorem State.shaped_withOracle {x : List (List Byte)} {d : Nat} {old : List (Nat × List Byte)} {s body body' : State}
    {i : Instr} (hb : body' = body.withOracle x d old) :
    (s.withOracle x d old).shaped i body' = (s.shaped i body).withOracle x d old := by
  unfold State.shaped
  cases shapeFault i with
  | none => exact hb
  | some reason => rfl

/-- Settles O27: each of the four is its shape guard around updates that do not look at the transport. -/
theorem assemblyIgnoresTheOracle : Obligations.AssemblyIgnoresTheOracle := by
  intro i s t x d old hi h
  cases i <;> simp [opcode] at hi <;> obtain rfl := Host.Outcome.next.inj h
  case frmBuild v => exact congrArg Host.Outcome.next (State.shaped_withOracle rfl)
  case cmdBuild a v => exact congrArg Host.Outcome.next (State.shaped_withOracle rfl)
  case txFrame v => exact congrArg Host.Outcome.next (State.shaped_withOracle rfl)
  case cmdTx a v => exact congrArg Host.Outcome.next (State.shaped_withOracle rfl)

end Sys2Proof.Machine
end

section
/-! PROOF. The host that keeps its duties (R240 to R243): the watch agrees with the block along every run, so RX_PLD is
issued only where a length is latched. -/

namespace Sys2Proof.Machine

/-- R24: a pure operation leaves the latch as it was, also when it faults. -/
theorem exec_rxl_of_pure {i : Instr} {s t : State} (h : exec i s = .next t) (hi : isStream i = false) : t.rxl = s.rxl := by
  obtain ⟨reason, -, rfl⟩ | ⟨-, hc⟩ := exec_cases h
  · rfl
  · rw [hc.rxl_eq, if_pos hi]

/-- R153: a successful RX_HDR leaves a length latched. -/
theorem exec_rxHdr_latches {s t : State} (h : exec .rxHdr s = .next t) (hst : t.st = 0x00) : t.rxl = some t.res := by
  rw [(completes_of_receiving h rfl).rxl_eq, if_neg (by decide), if_pos ⟨rfl, hst⟩]

theorem State.failed_eq_false_iff (s : State) : s.failed = false ↔ s.st = 0x00 := by
  simp [State.failed, Status.code]

/-- An operation the watch allows keeps the watch in agreement with the block. -/
theorem Watch.agrees_of_issue {w w' : Watch} {i : Instr} {s t : State} (hw : w.Agrees s) (h : exec i s = .next t)
    (ha : w.act (.issue i t.resultPort) = some w') : w'.Agrees t := by
  intro hb
  obtain ⟨rfl, hok⟩ | ⟨hi, hbw⟩ := Watch.issue_header_cases ha hb
  · rw [exec_rxHdr_latches h ((State.failed_eq_false_iff t).mp hok)]
    exact nofun
  · rw [exec_rxl_of_pure h hi]
    exact hw hbw

/-- Where the watch allows RX_PLD, RX_PLD does not fail with E_SEQ. -/
theorem Watch.rxPld_st_ne_eSeq {w w' : Watch} {seen : Results} {s t : State} (hw : w.Agrees s)
    (h : exec .rxPld s = .next t) (ha : w.act (.issue .rxPld seen) = some w') : t.st ≠ 0x0C := by
  obtain ⟨hb, -⟩ := Option.ite_none_right_eq_some.mp ha
  exact exec_rxPld_st_ne_eSeq h (hw hb)

theorem Watch.agrees_of_other_act {w w' : Watch} {a : HostAct} {s : State} (hw : w.Agrees s)
    (hn : ∀ i seen, a ≠ .issue i seen) (ha : w.act a = some w') : w'.Agrees s := fun hb =>
  hw (Watch.act_header_cases hn ha hb).1

/-- After a reset of the block the watch no longer lets RX_PLD follow. -/
theorem Watch.agrees_of_reset {w w' : Watch} (ha : w.act .reset = some w') (t : State) : w'.Agrees t := fun hb =>
  absurd rfl (Watch.act_header_cases (by simp) ha hb).2

theorem Watch.Agrees.congr {w : Watch} {s t : State} (hw : w.Agrees s) (h : t.rxl = s.rxl) : w.Agrees t := by
  rw [Watch.Agrees, h]
  exact hw

/-- E_SEQ is left by RX_PLD alone. -/
theorem eq_rxPld_of_eSeq {i : Instr} {s t : State} (h : exec i s = .next t) (hf : s.fault = none) (ht : t.fault = none)
    (hst : t.st = 0x0C) : i = .rxPld := by
  obtain ⟨-, -, -, -, -, -, -, hseq, -⟩ := statusCodesAreRaisedWhereTabled i s t h hf ht
  have hop := hseq hst
  cases i <;> simp [opcode] at hop ⊢

theorem State.resultPort_complete (s : State) : s.complete.resultPort = s.resultPort := by
  simp [State.resultPort]

/-- A recorded request of the run is an operation that completed in an unfaulted block. -/
theorem exec_of_recorded {s t : State} {r : Request} {rest : List HostMove} {i : Instr} (hd : decode r = .ok i)
    (hp : s.pending = .request r :: rest) (h : step s = .next t) (ht : t.fault = none) :
    s.fault = none ∧ ∃ u, exec i { s with pending := rest } = .next u ∧ u.fault = none ∧ t = u.complete := by
  obtain ⟨hp', -⟩ | ⟨_, hp', -⟩ | ⟨_, _, j, u, hp', hf, hd', hu, rfl⟩ | ⟨_, _, -, -, -, rfl⟩ := step_cases h
  · cases hp.symm.trans hp'
  · cases hp.symm.trans hp'
  · cases hp.symm.trans hp'
    cases hd.symm.trans hd'
    exact ⟨hf, u, hu, u.complete_fault.symm.trans ht, rfl⟩
  · cases ht

/-- The head of a record of a run: a state the rest of the record starts from, in agreement with the watch after it. -/
theorem Watch.agrees_after_head {w w' : Watch} {a : HostAct} {acts : List HostAct} {s : State} (hw : w.Agrees s)
    (ha : w.act a = some w') (hr : s.Records (a :: acts)) :
    ∃ t, w'.Agrees t ∧ t.Records acts ∧ ∀ i seen, a = .issue i seen → seen.st ≠ 0x0C := by
  cases a
  case issue i seen =>
    obtain ⟨r, rest, t, hp, hd, hstep, ht, rfl, hrest⟩ := hr
    obtain ⟨hf, u, hu, hfu, rfl⟩ := exec_of_recorded hd hp hstep ht
    have hws : w.Agrees { s with pending := rest } := hw.congr rfl
    rw [State.resultPort_complete] at ha ⊢
    refine ⟨_, (Watch.agrees_of_issue hws hu ha).congr u.complete_rxl, hrest, fun j seen he hst => ?_⟩
    obtain ⟨rfl, rfl⟩ : i = j ∧ u.resultPort = seen := by simpa using he
    obtain rfl := eq_rxPld_of_eSeq hu hf hfu hst
    exact Watch.rxPld_st_ne_eSeq hws hu ha hst
  case reset =>
    obtain ⟨rest, t, -, -, hrest⟩ := hr
    exact ⟨t, Watch.agrees_of_reset ha t, hrest, nofun⟩
  all_goals exact ⟨s, Watch.agrees_of_other_act hw (by simp) ha, hr, nofun⟩

theorem Watch.ne_eSeq_of_dutiful (acts : List HostAct) {w : Watch} {s : State} (hw : w.Agrees s)
    (hd : w.dutiful acts = true) (hr : s.Records acts) : ∀ i seen, HostAct.issue i seen ∈ acts → seen.st ≠ 0x0C := by
  induction acts generalizing w s with
  | nil => simp
  | cons a acts ih =>
    cases ha : w.act a with
    | none => simp [Watch.dutiful, ha] at hd
    | some w' =>
      obtain ⟨t, hwt, hrest, hhead⟩ := Watch.agrees_after_head hw ha hr
      intro i seen hmem
      obtain he | hmem := List.mem_cons.mp hmem
      · exact hhead i seen he.symm
      · exact ih hwt (by simpa [Watch.dutiful, ha] using hd) hrest i seen hmem

theorem Watch.start_agrees (s : State) : Watch.start.Agrees s := nofun

/-- Settles O59: the watch and the block agree at the start and after every act. -/
theorem dutifulHostSeesNoSequenceError : Obligations.DutifulHostSeesNoSequenceError := by
  refine ⟨fun acts s => Watch.ne_eSeq_of_dutiful acts (Watch.start_agrees s), Watch.start_agrees,
    fun _ _ _ _ hw _ hn ha => Watch.agrees_of_other_act hw hn ha, fun _ _ _ t _ _ _ ha => Watch.agrees_of_reset ha t,
    fun w w' i s t hw h ha => ⟨Watch.agrees_of_issue hw h ha, ?_⟩⟩
  rintro rfl
  exact Watch.rxPld_st_ne_eSeq hw h ha

end Sys2Proof.Machine
end

section
/-! PROOF. The reversal's laws (R104), the transport's reads (R7, R27, R46), the checksum's arithmetic (R112 to R114) and
the layout of a frame (R60 to R63). -/

namespace Sys2Proof.Machine

/-- R100: the 1 bits of the reversal are those of the byte, counted from the other end. -/
theorem brev_ones (b : Byte) :
    ((List.range 8).filter (brev b).getLsbD).length = ((List.range 8).filter b.getLsbD).length := by
  have hmirror : (List.range 8).reverse = (List.range 8).map (7 - ·) := by decide
  rw [← List.countP_eq_length_filter, ← List.countP_eq_length_filter, ← (List.range 8).countP_reverse (p := b.getLsbD),
    hmirror, List.countP_map]
  exact List.countP_congr fun i hi => by simp [brev_getLsbD b (List.mem_range.mp hi)]

/-- Settles O14: an involution is a bijection; the fixed points are found by trying the 256 bytes. -/
theorem reversalLaws : Obligations.ReversalLaws :=
  ⟨brev_brev, (show Function.Involutive brev from brev_brev).bijective, brev_ones, by decide⟩

/-- Settles O17: a written-out answer is taken from, and where there is none the next draw is. -/
theorem readTakesTheOraclesAnswer : Obligations.ReadTakesTheOraclesAnswer := by
  refine fun n s => ⟨s.rxAnswer_length_le n, rfl, fun hnone => ?_, fun wire rest hwire => ?_, fun r hr => ?_⟩
  · simp [State.rxAnswer, State.rxLeft, State.rxDrawsNext, hnone]
  · simp [State.rxAnswer, State.rxLeft, State.rxDrawsNext, hwire]
  · simp [State.rxAnswer, State.rxLeft, hr]

theorem byteSum_le (l : List Byte) : byteSum l ≤ 255 * l.length := by
  induction l with
  | nil => simp
  | cons b l ih =>
    rw [byteSum_cons, List.length_cons]
    omega

/-- R113: an accumulator that wraps after every addition. -/
theorem foldl_add_toNat (l : List Byte) (acc : Byte) :
    (l.foldl (fun acc b => acc + b) acc).toNat = (acc.toNat + byteSum l) % 256 := by
  induction l generalizing acc with
  | nil =>
    rw [List.foldl_nil, byteSum_nil]
    omega
  | cons b l ih =>
    rw [List.foldl_cons, ih, BitVec.toNat_add, byteSum_cons]
    omega

theorem sum_mod_eq_zero_iff (l : List Byte) (c : Byte) : (byteSum l + c.toNat) % 256 = 0 ↔ c = checksum l := by
  rw [← sumsToZero_iff, sumsToZero, beq_iff_eq]

/-- Settles O20: 262 bytes of at most 255, the accumulator taken modulo 256, and the one byte that passes. -/
theorem checksumArithmeticIsModular : Obligations.ChecksumArithmeticIsModular := by
  intro l
  refine ⟨fun hl => ?_, ?_, (sum_mod_eq_zero_iff l _).mpr rfl, sum_mod_eq_zero_iff l⟩
  · have := byteSum_le l
    omega
  · rw [foldl_add_toNat]
    simp

/-- The check depends on the list through its sum modulo 256 alone. -/
theorem sumsToZero_congr {l m : List Byte} (h : byteSum l % 256 = byteSum m % 256) (c : Byte) :
    sumsToZero l c = sumsToZero m c := by
  rw [sumsToZero, sumsToZero, Nat.add_mod, h, ← Nat.add_mod]

theorem byteSum_perm {l m : List Byte} (h : l.Perm m) : byteSum l = byteSum m := by
  rw [byteSum_eq_sum_map_toNat, byteSum_eq_sum_map_toNat, (h.map BitVec.toNat).sum_eq]

theorem byteSum_replicate_zero (n : Nat) : byteSum (List.replicate n 0x00) = 0 := by
  rw [byteSum_eq_sum_map_toNat]
  simp

/-- Settles O21: a changed byte moves the sum by less than 256; the other changes leave it as it was modulo 256. -/
theorem checksumDetection : Obligations.ChecksumDetection := by
  refine ⟨fun l m x y c hxy h => ?_, fun l c d hcd h => ?_, fun l m c h => sumsToZero_congr (by rw [byteSum_perm h]) c,
    fun l m n x y k c => sumsToZero_congr ?_ c, fun l m c => sumsToZero_congr (by simp) c, fun n => ?_⟩
  · rw [ne_eq, ← BitVec.toNat_inj] at hxy
    simp only [sumsToZero, byteSum_append, byteSum_cons, beq_iff_eq, beq_eq_false_iff_ne] at h ⊢
    omega
  · rw [Bool.eq_false_iff]
    intro hd
    exact hcd (((sumsToZero_iff l c).mp h).trans ((sumsToZero_iff l d).mp hd).symm)
  · simp only [byteSum_append, byteSum_cons, BitVec.toNat_add, BitVec.toNat_sub]
    omega
  · rw [sumsToZero, byteSum_replicate_zero]
    rfl

/-- Settles O22: LEN is the length, and the two checksums are the bytes that `sum_mod_eq_zero_iff` speaks of. -/
theorem frameLayout : Obligations.FrameLayout := by
  intro p hp
  have hlen := lenByte_toNat p hp
  refine ⟨lenByte p, checksum [lenByte p], checksum p, rfl, frame_length p, hlen, ?_, ?_, fun x => ?_, fun x => ?_⟩
  · rw [checksum_toNat, byteSum_cons, byteSum_nil]
    omega
  · rw [checksum_toNat, byteSum_eq_sum_map_toNat]
  · exact sum_mod_eq_zero_iff [lenByte p] x
  · rw [← byteSum_eq_sum_map_toNat]
    exact sum_mod_eq_zero_iff p x

end Sys2Proof.Machine
end

section
/-! PROOF. How the operations that parse and receive compare (R149, R156, R173 to R175): each stream form against WIRE_RX
and its pure form, RSP_RX against RX_HDR, RX_PLD and RSP_MATCH, and RSP_RX on a response that is well made. -/

namespace Sys2Proof.Machine

/-- R141: a header with the right start bytes and the wrong LCS. -/
theorem exec_hdrParse_of_bad_lcs {len lcs : Byte} (h : (len.toNat + lcs.toNat) % 256 ≠ 0) (s : State) :
    exec (.hdrParse [0x00, 0x00, 0xFF, len, lcs]) s = .next { s with st := 0x02 } := by
  obtain ⟨-, hhdr, -⟩ := hdrParseJudgesTheHeader s
  rw [hhdr, if_neg (by decide), if_pos h]

/-- Settles O34: three headers fail the LCS equation, and the application-error frame passes both checks. -/
theorem otherFrameKindsAreJudgedAsFrames : Obligations.OtherFrameKindsAreJudgedAsFrames := fun s =>
  ⟨by decide, exec_hdrParse_of_bad_lcs (by decide) s, exec_hdrParse_of_bad_lcs (by decide) s,
    exec_hdrParse_of_bad_lcs (by decide) s, exec_hdrParse_of_ok rfl (n := 0x01) rfl,
    exec_pldParse_of_ok rfl (p := [0x7F]) rfl⟩

/-- R171: what a successful RSP_RX leaves, which is the end of its last check. -/
theorem exec_rspRx_success {a b : Byte} {s t : State} (h : exec (.rspRx a b) s = .next t) (hst : t.st = 0x00) :
    ∃ p body, p.length ≤ 255 ∧ rspCheck s.params p a b.toNat = .ok body ∧ t.buf = body ∧ t.res = lenByte body := by
  have hfail {c : Status} (hc : s.MayFail (.rspRx a b) c) {u : State} (he : t = u.fail c) : False :=
    hc.code_ne_zero (by rw [← hst, he, State.fail_st])
  obtain ⟨u, hu, hcases⟩ := execRspRx_cases a b s
  obtain rfl : u = t := Host.Outcome.next.inj (hu.symm.trans h)
  obtain ⟨-, he⟩ | ⟨-, ⟨c, hc, -, he⟩ | ⟨n, -, rfl⟩⟩ := hcases
  · exact (hfail (mayFail_of_short rfl) he).elim
  · exact (hfail (mayFail_of_hdrCheck (by simp [opcode]) hc) he).elim
  obtain ⟨-, he⟩ | ⟨-, ⟨-, he⟩ | ⟨-, ⟨c, hc, -, he⟩ | ⟨p, -, hp, ⟨c, hc, he⟩ | ⟨body, hbody, he⟩⟩⟩⟩ :=
    State.rspPayload_cases n a b (s.rxRead 5).clearLatch
  · exact (hfail (c := .eShortLen) ⟨by simp [Status.raisedBy, opcode], nofun⟩ he).elim
  · exact (hfail (mayFail_of_short rfl) he).elim
  · exact (hfail (mayFail_of_pldCheck (by simp [opcode]) hc) he).elim
  · exact (hfail (mayFail_of_rspCheck (by simp [opcode]) hc) he).elim
  · rw [he]
    exact ⟨p, body, by omega, hbody, rfl, rfl⟩

/-- Settles O37: the body has two bytes less than a payload of at most 255, so its length is the byte in RES. -/
theorem successfulResponseCountsItsBody : Obligations.SuccessfulResponseCountsItsBody := by
  intro a b s t h hst
  obtain ⟨p, body, hp, hbody, hbuf, hres⟩ := exec_rspRx_success h hst
  obtain ⟨hlen, hcap, hempty⟩ := rspCheck_ok hbody
  rw [hbuf, hres, lenByte_toNat body (by omega)]
  exact ⟨rfl, by omega, hcap, hempty⟩

/-- R171: RSP_RX where the transport returns the wire form of a valid header with a LEN of at least 2, then of a payload
that passes its check and the response check. -/
theorem exec_rspRx_of_ok {c m n : Byte} {hdr tail p body : List Byte} {s : State} (hfirst : s.rxAnswer 5 = toWire hdr)
    (hlen : hdr.length = 5) (hhdr : hdrCheck hdr = .ok n) (hn : 2 ≤ n.toNat)
    (hsecond : (s.rxRead 5).rxAnswer (n.toNat + 2) = toWire tail) (htail : tail.length = n.toNat + 2)
    (hpld : pldCheck n.toNat tail = .ok p) (hrsp : rspCheck s.params p c m.toNat = .ok body) :
    exec (.rspRx c m) s =
      .next (((((s.rxRead 5).rxRead (n.toNat + 2)).clearLatch).setBuf body).setRes (lenByte body)).ok := by
  refine congrArg Host.Outcome.next ((State.receiving_of_toWire (s := s.clearLatch) hfirst hlen).trans
    ((State.judge_of_ok hhdr).trans ((State.rspPayload_of_two_le hn c m _).trans ?_)))
  exact (State.receiving_of_toWire (s := (s.rxRead 5).clearLatch) hsecond htail).trans
    ((State.judge_of_ok hpld).trans (State.judge_of_ok hrsp))

/-- Settles O39: the two halves of the frame pass their checks, as in the round trip, and its payload passes the
response check. -/
theorem wellMadeResponseIsAccepted : Obligations.WellMadeResponseIsAccepted := by
  intro c m body s hempty hlen hcap hfirst hsecond
  generalize hp : (0xD5 : Byte) :: (c + 1) :: body = p at hfirst hsecond
  have hn : (lenByte p).toNat = body.length + 2 := by
    rw [← hp]
    exact lenByte_toNat _ (Nat.add_le_add_right hlen 2)
  have hplen : p.length = body.length + 2 := hp ▸ rfl
  have hrsp : rspCheck s.params p c m.toNat = .ok body := by
    rw [← hp, rspCheck_eq, if_neg (by simp), if_neg (by simp [BitVec.toNat_add]), if_neg (by simpa using hempty),
      if_neg hcap.not_gt]
  have htail : ((frame p).drop 5).length = (lenByte p).toNat + 2 := by
    rw [hn, List.length_drop, frame_length, hplen]
    omega
  have hpld : pldCheck (lenByte p).toNat ((frame p).drop 5) = .ok p := by
    rw [hn, ← hplen]
    exact pldCheck_frame p
  have hread : (s.rxRead 5).rxAnswer ((lenByte p).toNat + 2) = toWire ((frame p).drop 5) := by
    rw [hn]
    exact hsecond.trans List.map_drop.symm
  have hexec := exec_rspRx_of_ok (hfirst.trans List.map_take.symm) rfl (hdrCheck_frame p) (by omega) hread htail
    hpld hrsp
  exact ⟨_, hexec, rfl, rfl, lenByte_toNat body (by omega)⟩

end Sys2Proof.Machine
end

section
/-! PROOF. The stream forms against the pure forms (R156), and RSP_RX against its three stages (R173, R174). On each side
the read is the same, and both sides then judge by the same check. -/

namespace Sys2Proof.Machine

theorem code_ne_zero_of_hdrCheck {h : List Byte} {c : Status} (hc : hdrCheck h = .error c) : c.code ≠ 0x00 := by
  rcases hdrCheck_cases h with he | he | he <;> cases he.symm.trans hc <;> decide

theorem code_ne_zero_of_pldCheck {n : Nat} {t : List Byte} {c : Status} (hc : pldCheck n t = .error c) :
    c.code ≠ 0x00 := by
  rcases pldCheck_cases n t with he | he | he <;> cases he.symm.trans hc <;> decide

theorem code_ne_zero_of_rspCheck {cfg : Params} {p : List Byte} {a : Byte} {m : Nat} {c : Status}
    (hc : rspCheck cfg p a m = .error c) : c.code ≠ 0x00 := by
  rcases rspCheck_cases cfg p a m with he | he | he | ⟨he, -⟩ | he | ⟨he, -, -⟩ <;> cases he.symm.trans hc <;> decide

/-- What a read answered in full leaves WIRE_RX with (R103). -/
def State.wireRxDone (a : Byte) (l : List Byte) (u : State) : State := ((u.setBuf l).setRes a).ok

/-- The pure form, issued on `BUF` of `u`, ends with the `ST` of `t`, and with results that agree with those of `t`. -/
def SameAsPure (form : List Byte → Instr) (agree : State → State → Prop) (t u : State) : Prop :=
  ∃ w, exec (form u.buf) u = .next w ∧ t.st = w.st ∧ agree t w

/-- R156: an operation that clears the latch and reads as many bytes as WIRE_RX fails as WIRE_RX does when the read comes
up short, and is otherwise to be compared on the bytes WIRE_RX leaves. -/
theorem receiving_against_wireRx {a : Byte} {n : Nat} (ha : a.toNat = n) (s : State) {k : List Byte → State → State}
    {form : List Byte → Instr} {agree : State → State → Prop} (hlog : ∀ l u, (k l u).rxLog = u.rxLog)
    (hsame : ∀ l, l.length = n →
      SameAsPure form agree (k l (s.clearLatch.rxRead n)) ((s.clearLatch.rxRead n).wireRxDone a l)) :
    ∃ u, exec (.wireRx a) s = .next u ∧ (s.clearLatch.receiving n k).rxLog = u.rxLog ∧
      (u.st ≠ 0x00 → (s.clearLatch.receiving n k).st = u.st) ∧
      (u.st = 0x00 → SameAsPure form agree (s.clearLatch.receiving n k) u) := by
  subst ha
  refine ⟨_, rfl, ?_⟩
  rcases Nat.lt_or_ge (s.clearLatch.rxAnswer a.toNat).length a.toNat with hshort | hfull
  · rw [State.receiving_of_short hshort, count, State.receiving_of_short hshort]
    exact ⟨rfl, fun _ => rfl, by simp [Status.code]⟩
  · have hlen : (fromWire (s.clearLatch.rxAnswer a.toNat)).length = a.toNat := by
      rw [fromWire_length]
      exact le_antisymm (State.rxAnswer_length_le _ _) hfull
    rw [State.receiving_of_fromWire rfl hlen, count, State.receiving_of_fromWire rfl hlen]
    exact ⟨hlog _ _, fun hne => absurd rfl hne, fun _ => hsame _ hlen⟩

theorem State.judge_rxLog {α : Type} {s : State} {r : Except Status α} {k : α → State}
    (hk : ∀ x, (k x).rxLog = s.rxLog) : (s.judge r k).rxLog = s.rxLog := by
  cases r with
  | error c => rfl
  | ok x => exact hk x

/-- R203: a check that does not pass fails the operation with its code. -/
theorem State.judge_of_error {α : Type} {s : State} {r : Except Status α} {c : Status} {k : α → State}
    (h : r = .error c) : s.judge r k = s.fail c := by
  rw [h, State.judge]

theorem exec_hdrParse_of_error {s : State} {h : List Byte} {c : Status} (hl : h.length = 5)
    (hc : hdrCheck h = .error c) : exec (.hdrParse h) s = .next (s.fail c) :=
  congrArg Host.Outcome.next ((State.shaped_of_none (i := .hdrParse h) (if_pos hl)).trans (State.judge_of_error hc))

theorem exec_pldParse_of_error {s : State} {a : Byte} {t : List Byte} {c : Status} (hl : t.length = a.toNat + 2)
    (hc : pldCheck a.toNat t = .error c) : exec (.pldParse a t) s = .next (s.fail c) :=
  congrArg Host.Outcome.next ((State.shaped_of_none (i := .pldParse a t) (if_pos hl)).trans (State.judge_of_error hc))

theorem exec_ackMatch_of_error {s : State} {v : List Byte} {c : Status} (hl : v.length = 6)
    (hc : ackCheck v = .error c) : exec (.ackMatch v) s = .next (s.fail c) :=
  congrArg Host.Outcome.next ((State.shaped_of_none (i := .ackMatch v) (if_pos hl)).trans (State.judge_of_error hc))

theorem exec_ackMatch_of_ok {s : State} {v : List Byte} (hl : v.length = 6) (hc : ackCheck v = .ok ()) :
    exec (.ackMatch v) s = .next s.ok :=
  congrArg Host.Outcome.next ((State.shaped_of_none (i := .ackMatch v) (if_pos hl)).trans (State.judge_of_ok hc))

/-- Settles O40: after a full read the two forms judge the same bytes by the same check. -/
theorem streamFormsEqualPureForms : Obligations.StreamFormsEqualPureForms := by
  refine ⟨fun s t h => ?_, fun s t h => ?_, fun s t n hn hle h => ?_⟩
  · obtain rfl := Host.Outcome.next.inj h
    refine receiving_against_wireRx (a := 5) rfl s (form := .hdrParse) (agree := fun t w => w.st = 0x00 → t.res = w.res)
      (fun _ _ => State.judge_rxLog fun _ => rfl) fun l hl => ?_
    cases hc : hdrCheck l with
    | error c => exact ⟨_, exec_hdrParse_of_error hl hc, rfl, fun hok => absurd hok (code_ne_zero_of_hdrCheck hc)⟩
    | ok len => exact ⟨_, exec_hdrParse_of_ok hl hc, rfl, fun _ => rfl⟩
  · obtain rfl := Host.Outcome.next.inj h
    refine receiving_against_wireRx (a := 6) rfl s (form := .ackMatch) (agree := fun t w => t.res = s.res ∧ w.res = 0x06)
      (fun _ _ => State.judge_rxLog fun _ => rfl) fun l hl => ?_
    cases hc : ackCheck l with
    | error c => exact ⟨_, exec_ackMatch_of_error hl hc, rfl, rfl, rfl⟩
    | ok _ => exact ⟨_, exec_ackMatch_of_ok hl hc, rfl, rfl, rfl⟩
  · rw [exec_rxPld_of_latched hn] at h
    obtain rfl := Host.Outcome.next.inj h
    have htwo : (n + 2).toNat = n.toNat + 2 := by
      rw [BitVec.toNat_add]
      exact Nat.mod_eq_of_lt (Nat.lt_of_le_of_lt (Nat.add_le_add_right hle 2) (by decide))
    refine receiving_against_wireRx htwo s (form := .pldParse n)
      (agree := fun t w => w.st = 0x00 → t.res = w.res ∧ t.buf = w.buf)
      (fun _ _ => State.judge_rxLog fun _ => rfl) fun l hl => ?_
    cases hc : pldCheck n.toNat l with
    | error c => exact ⟨_, exec_pldParse_of_error hl hc, rfl, fun hok => absurd hok (code_ne_zero_of_pldCheck hc)⟩
    | ok p => exact ⟨_, exec_pldParse_of_ok hl hc, rfl, fun _ => ⟨rfl, rfl⟩⟩

/-! RSP_RX stage by stage (R173): each way RSP_RX can end fixes what its stages do one after the other. -/

theorem fromWire_rxAnswer_length {n : Nat} {s : State} (h : (s.rxAnswer n).length = n) :
    (fromWire (s.rxAnswer n)).length = n :=
  (fromWire_length _).trans h

theorem exec_rxHdr_of_short {s : State} (h : (s.rxAnswer 5).length < 5) :
    exec .rxHdr s = .next ((s.rxRead 5).clearLatch.fail .eShortRead) :=
  congrArg Host.Outcome.next (State.receiving_of_short (s := s.clearLatch) h)

theorem exec_rxHdr_of_error {s : State} {e : Status} (hl : (s.rxAnswer 5).length = 5)
    (hc : hdrCheck (fromWire (s.rxAnswer 5)) = .error e) : exec .rxHdr s = .next ((s.rxRead 5).clearLatch.fail e) :=
  congrArg Host.Outcome.next ((State.receiving_of_fromWire (s := s.clearLatch) rfl (fromWire_rxAnswer_length hl)).trans
    (State.judge_of_error hc))

theorem exec_rxHdr_of_header {s : State} {n : Byte} (hl : (s.rxAnswer 5).length = 5)
    (hc : hdrCheck (fromWire (s.rxAnswer 5)) = .ok n) : exec .rxHdr s = .next (((s.rxRead 5).latch n).setRes n).ok :=
  congrArg Host.Outcome.next ((State.receiving_of_fromWire (s := s.clearLatch) rfl (fromWire_rxAnswer_length hl)).trans
    (State.judge_of_ok hc))

section
variable {s : State} {n : Byte} (hr : s.rxl = some n)
include hr

theorem exec_rxPld_of_short (h : (s.rxAnswer (n.toNat + 2)).length < n.toNat + 2) :
    exec .rxPld s = .next ((s.rxRead (n.toNat + 2)).clearLatch.fail .eShortRead) := by
  rw [exec_rxPld_of_latched hr]
  exact congrArg Host.Outcome.next (State.receiving_of_short (s := s.clearLatch) h)

theorem exec_rxPld_of_error {e : Status} (hl : (s.rxAnswer (n.toNat + 2)).length = n.toNat + 2)
    (hc : pldCheck n.toNat (fromWire (s.rxAnswer (n.toNat + 2))) = .error e) :
    exec .rxPld s = .next ((s.rxRead (n.toNat + 2)).clearLatch.fail e) := by
  rw [exec_rxPld_of_latched hr]
  exact congrArg Host.Outcome.next ((State.receiving_of_fromWire (s := s.clearLatch) rfl
    (fromWire_rxAnswer_length hl)).trans (State.judge_of_error hc))

theorem exec_rxPld_of_payload {p : List Byte} (hl : (s.rxAnswer (n.toNat + 2)).length = n.toNat + 2)
    (hc : pldCheck n.toNat (fromWire (s.rxAnswer (n.toNat + 2))) = .ok p) :
    exec .rxPld s = .next ((((s.rxRead (n.toNat + 2)).clearLatch).setBuf p).setRes n).ok := by
  rw [exec_rxPld_of_latched hr]
  exact congrArg Host.Outcome.next ((State.receiving_of_fromWire (s := s.clearLatch) rfl
    (fromWire_rxAnswer_length hl)).trans (State.judge_of_ok hc))

end

theorem exec_rspMatch_of_error {a b : Byte} {v : List Byte} {s : State} {e : Status} (hv : v.length ≤ 255)
    (hc : rspCheck s.params v a b.toNat = .error e) : exec (.rspMatch a b v) s = .next (s.fail e) :=
  (exec_rspMatch_of_fits hv).trans (congrArg Host.Outcome.next (State.judge_of_error hc))

theorem exec_rspMatch_of_ok {a b : Byte} {v body : List Byte} {s : State} (hv : v.length ≤ 255)
    (hc : rspCheck s.params v a b.toNat = .ok body) :
    exec (.rspMatch a b v) s = .next ((s.setBuf body).setRes (lenByte body)).ok :=
  (exec_rspMatch_of_fits hv).trans (congrArg Host.Outcome.next (State.judge_of_ok hc))

/-- `t` ends as RX_PLD from `s1` where that fails, and else as RSP_MATCH of the payload after it: the same `ST` and reads,
and on success the same results. -/
def EndsAsRxPld (c m : Byte) (t s1 : State) : Prop :=
  ∃ s2, exec .rxPld s1 = .next s2 ∧ (s2.st ≠ 0x00 → t.st = s2.st ∧ t.rxLog = s2.rxLog) ∧
    (s2.st = 0x00 → ∃ s3, exec (.rspMatch c m s2.buf) s2 = .next s3 ∧ t.st = s3.st ∧ t.rxLog = s3.rxLog ∧
      (s3.st = 0x00 → t.buf = s3.buf ∧ t.res = s3.res))

/-- The stages after a header that declared a LEN of at least 2. -/
theorem endsAsRxPld_of_rspPayload {n : Byte} (hn : 2 ≤ n.toNat) (c m : Byte) (v : State) :
    EndsAsRxPld c m (v.rspPayload n c m) ((v.latch n).setRes n).ok := by
  have hr : (((v.latch n).setRes n).ok).rxl = some n := rfl
  have hn255 : n.toNat ≤ 255 := by omega
  obtain ⟨hlow, -⟩ | ⟨-, ⟨hshort, he⟩ | ⟨hl, ⟨e, -, hpld, he⟩ | ⟨p, hpld, hp, hrsp⟩⟩⟩ := v.rspPayload_cases n c m
  · omega
  · rw [he]
    exact ⟨_, exec_rxPld_of_short hr hshort, fun _ => ⟨rfl, rfl⟩, by simp [Status.code]⟩
  · rw [he]
    exact ⟨_, exec_rxPld_of_error hr hl hpld, fun _ => ⟨rfl, rfl⟩,
      fun hok => absurd hok (code_ne_zero_of_pldCheck hpld)⟩
  · refine ⟨_, exec_rxPld_of_payload hr hl hpld, fun hne => absurd rfl hne, fun _ => ?_⟩
    rw [← hp] at hn255
    obtain ⟨e, hc, he⟩ | ⟨body, hc, he⟩ := hrsp <;> rw [he]
    · exact ⟨_, exec_rspMatch_of_error hn255 hc, rfl, rfl, fun hok => absurd hok (code_ne_zero_of_rspCheck hc)⟩
    · exact ⟨_, exec_rspMatch_of_ok hn255 hc, rfl, rfl, fun _ => ⟨rfl, rfl⟩⟩

/-- Settles O41: RX_HDR ends as the header part of RSP_RX says, and the stages after it are the lemma above. -/
theorem rspRxDecomposes : Obligations.RspRxDecomposes := by
  intro c m s t h
  refine ⟨fun hst => ?_, ?_⟩
  · obtain ⟨hk, -⟩ | ⟨-, ns, e, rfl⟩ := (completes_of_receiving h rfl).of_failed hst
    · cases hk
    · exact ⟨by simp, by simp⟩
  obtain ⟨u, hu, hcases⟩ := execRspRx_cases c m s
  obtain rfl : u = t := Host.Outcome.next.inj (hu.symm.trans h)
  obtain ⟨hshort, rfl⟩ | ⟨hl, ⟨e, -, hc, rfl⟩ | ⟨n, hc, rfl⟩⟩ := hcases
  · exact ⟨_, exec_rxHdr_of_short hshort, fun _ => ⟨rfl, rfl⟩, by simp [Status.code], by simp [Status.code]⟩
  · have he := code_ne_zero_of_hdrCheck hc
    exact ⟨_, exec_rxHdr_of_error hl hc, fun _ => ⟨rfl, rfl⟩, fun hok => absurd hok he, fun hok => absurd hok he⟩
  · refine ⟨_, exec_rxHdr_of_header hl hc, fun hne => absurd rfl hne, fun _ (hn : n.toNat < 2) => ?_, fun _ hn => ?_⟩
    · rw [State.rspPayload_of_lt_two hn]
      exact ⟨rfl, rfl⟩
    · exact endsAsRxPld_of_rspPayload hn c m (s.rxRead 5).clearLatch

end Sys2Proof.Machine
end
